-- ==== Sys2Proof/Word.lean ====
section
/-! DEFINITION. The two bit-vector types of the bender 6502 core (00_scope.md R6, R8). -/

namespace Sys2Proof

/-- An 8-bit datum: a register, a memory byte, an opcode or operand byte (R6). -/
abbrev Byte := BitVec 8

/-- A 16-bit address or address operand (R6). -/
abbrev Word := BitVec 16

end Sys2Proof
end

