-- ==== Sys2Proof/Syntax.lean ====
section
/-! DEFINITION. The instructions: one constructor for each row of spec/opcode_table.json (30_encoding.md R55), and
three views of an instruction: its operation, its operand and its mode. -/

namespace Sys2Proof

/-- The 19 operations, by the source's mnemonics (R55). -/
inductive Operation where
  | lda | ldx | ldy
  | sta | stx | sty
  | tax | tay | txa | tya | tsx | txs
  | pha | php | pla | plp
  | and | eor | ora
  deriving DecidableEq, Repr

/-- The nine addressing modes and Implied (R51, R66 to R75). -/
inductive Mode where
  | implied | immediate
  | zeroPage | zeroPageX | zeroPageY
  | absolute | absoluteX | absoluteY
  | indirectX | indirectY
  deriving DecidableEq, Repr

/-- An operand that names a memory byte: the mode with its operand field `zp8` or `abs16` (R51, R52). -/
inductive Address where
  | zeroPage (z : Byte)
  | zeroPageX (z : Byte)
  | zeroPageY (z : Byte)
  | absolute (w : Word)
  | absoluteX (w : Word)
  | absoluteY (w : Word)
  | indirectX (z : Byte)
  | indirectY (z : Byte)
  deriving DecidableEq, Repr

/-- The operand of a read operation: the byte itself, or a memory operand (R61, R65). -/
inductive Operand where
  | immediate (v : Byte)
  | memory (m : Address)
  deriving DecidableEq, Repr

/-- The mode of a memory operand. -/
def Address.mode : Address → Mode
  | .zeroPage _ => .zeroPage
  | .zeroPageX _ => .zeroPageX
  | .zeroPageY _ => .zeroPageY
  | .absolute _ => .absolute
  | .absoluteX _ => .absoluteX
  | .absoluteY _ => .absoluteY
  | .indirectX _ => .indirectX
  | .indirectY _ => .indirectY

/-- The mode of an operand. -/
def Operand.mode : Operand → Mode
  | .immediate _ => .immediate
  | .memory m => m.mode

/-- How many operand bytes the mode has (R51). -/
def Mode.operandBytes : Mode → Nat
  | .implied => 0
  | .absolute | .absoluteX | .absoluteY => 2
  | .immediate | .zeroPage | .zeroPageX | .zeroPageY | .indirectX | .indirectY => 1

/-- The 65 instructions of R55. A constructor's name is the mnemonic and the mode; its argument is the operand field
of R51 (`v` for imm8, `z` for zp8, `w` for abs16). -/
inductive Instr where
  | ldaImm (v : Byte)
  | ldaZp (z : Byte)
  | ldaZpX (z : Byte)
  | ldaAbs (w : Word)
  | ldaAbsX (w : Word)
  | ldaAbsY (w : Word)
  | ldaIndX (z : Byte)
  | ldaIndY (z : Byte)
  | ldxImm (v : Byte)
  | ldxZp (z : Byte)
  | ldxZpY (z : Byte)
  | ldxAbs (w : Word)
  | ldxAbsY (w : Word)
  | ldyImm (v : Byte)
  | ldyZp (z : Byte)
  | ldyZpX (z : Byte)
  | ldyAbs (w : Word)
  | ldyAbsX (w : Word)
  | staZp (z : Byte)
  | staZpX (z : Byte)
  | staAbs (w : Word)
  | staAbsX (w : Word)
  | staAbsY (w : Word)
  | staIndX (z : Byte)
  | staIndY (z : Byte)
  | stxZp (z : Byte)
  | stxZpY (z : Byte)
  | stxAbs (w : Word)
  | styZp (z : Byte)
  | styZpX (z : Byte)
  | styAbs (w : Word)
  | tax
  | tay
  | txa
  | tya
  | tsx
  | txs
  | pha
  | php
  | pla
  | plp
  | andImm (v : Byte)
  | andZp (z : Byte)
  | andZpX (z : Byte)
  | andAbs (w : Word)
  | andAbsX (w : Word)
  | andAbsY (w : Word)
  | andIndX (z : Byte)
  | andIndY (z : Byte)
  | eorImm (v : Byte)
  | eorZp (z : Byte)
  | eorZpX (z : Byte)
  | eorAbs (w : Word)
  | eorAbsX (w : Word)
  | eorAbsY (w : Word)
  | eorIndX (z : Byte)
  | eorIndY (z : Byte)
  | oraImm (v : Byte)
  | oraZp (z : Byte)
  | oraZpX (z : Byte)
  | oraAbs (w : Word)
  | oraAbsX (w : Word)
  | oraAbsY (w : Word)
  | oraIndX (z : Byte)
  | oraIndY (z : Byte)
  deriving DecidableEq, Repr

/-- The operation of an instruction (R55). -/
def Instr.operation : Instr → Operation
  | .ldaImm _ | .ldaZp _ | .ldaZpX _ | .ldaAbs _ | .ldaAbsX _ | .ldaAbsY _ | .ldaIndX _ | .ldaIndY _ => .lda
  | .ldxImm _ | .ldxZp _ | .ldxZpY _ | .ldxAbs _ | .ldxAbsY _ => .ldx
  | .ldyImm _ | .ldyZp _ | .ldyZpX _ | .ldyAbs _ | .ldyAbsX _ => .ldy
  | .staZp _ | .staZpX _ | .staAbs _ | .staAbsX _ | .staAbsY _ | .staIndX _ | .staIndY _ => .sta
  | .stxZp _ | .stxZpY _ | .stxAbs _ => .stx
  | .styZp _ | .styZpX _ | .styAbs _ => .sty
  | .tax => .tax
  | .tay => .tay
  | .txa => .txa
  | .tya => .tya
  | .tsx => .tsx
  | .txs => .txs
  | .pha => .pha
  | .php => .php
  | .pla => .pla
  | .plp => .plp
  | .andImm _ | .andZp _ | .andZpX _ | .andAbs _ | .andAbsX _ | .andAbsY _ | .andIndX _ | .andIndY _ => .and
  | .eorImm _ | .eorZp _ | .eorZpX _ | .eorAbs _ | .eorAbsX _ | .eorAbsY _ | .eorIndX _ | .eorIndY _ => .eor
  | .oraImm _ | .oraZp _ | .oraZpX _ | .oraAbs _ | .oraAbsX _ | .oraAbsY _ | .oraIndX _ | .oraIndY _ => .ora

/-- The operand of an instruction; none for Implied (R55, R66). -/
def Instr.operand : Instr → Option Operand
  | .ldaImm v => some (.immediate v)
  | .ldaZp z => some (.memory (.zeroPage z))
  | .ldaZpX z => some (.memory (.zeroPageX z))
  | .ldaAbs w => some (.memory (.absolute w))
  | .ldaAbsX w => some (.memory (.absoluteX w))
  | .ldaAbsY w => some (.memory (.absoluteY w))
  | .ldaIndX z => some (.memory (.indirectX z))
  | .ldaIndY z => some (.memory (.indirectY z))
  | .ldxImm v => some (.immediate v)
  | .ldxZp z => some (.memory (.zeroPage z))
  | .ldxZpY z => some (.memory (.zeroPageY z))
  | .ldxAbs w => some (.memory (.absolute w))
  | .ldxAbsY w => some (.memory (.absoluteY w))
  | .ldyImm v => some (.immediate v)
  | .ldyZp z => some (.memory (.zeroPage z))
  | .ldyZpX z => some (.memory (.zeroPageX z))
  | .ldyAbs w => some (.memory (.absolute w))
  | .ldyAbsX w => some (.memory (.absoluteX w))
  | .staZp z => some (.memory (.zeroPage z))
  | .staZpX z => some (.memory (.zeroPageX z))
  | .staAbs w => some (.memory (.absolute w))
  | .staAbsX w => some (.memory (.absoluteX w))
  | .staAbsY w => some (.memory (.absoluteY w))
  | .staIndX z => some (.memory (.indirectX z))
  | .staIndY z => some (.memory (.indirectY z))
  | .stxZp z => some (.memory (.zeroPage z))
  | .stxZpY z => some (.memory (.zeroPageY z))
  | .stxAbs w => some (.memory (.absolute w))
  | .styZp z => some (.memory (.zeroPage z))
  | .styZpX z => some (.memory (.zeroPageX z))
  | .styAbs w => some (.memory (.absolute w))
  | .andImm v => some (.immediate v)
  | .andZp z => some (.memory (.zeroPage z))
  | .andZpX z => some (.memory (.zeroPageX z))
  | .andAbs w => some (.memory (.absolute w))
  | .andAbsX w => some (.memory (.absoluteX w))
  | .andAbsY w => some (.memory (.absoluteY w))
  | .andIndX z => some (.memory (.indirectX z))
  | .andIndY z => some (.memory (.indirectY z))
  | .eorImm v => some (.immediate v)
  | .eorZp z => some (.memory (.zeroPage z))
  | .eorZpX z => some (.memory (.zeroPageX z))
  | .eorAbs w => some (.memory (.absolute w))
  | .eorAbsX w => some (.memory (.absoluteX w))
  | .eorAbsY w => some (.memory (.absoluteY w))
  | .eorIndX z => some (.memory (.indirectX z))
  | .eorIndY z => some (.memory (.indirectY z))
  | .oraImm v => some (.immediate v)
  | .oraZp z => some (.memory (.zeroPage z))
  | .oraZpX z => some (.memory (.zeroPageX z))
  | .oraAbs w => some (.memory (.absolute w))
  | .oraAbsX w => some (.memory (.absoluteX w))
  | .oraAbsY w => some (.memory (.absoluteY w))
  | .oraIndX z => some (.memory (.indirectX z))
  | .oraIndY z => some (.memory (.indirectY z))
  | .tax | .tay | .txa | .tya | .tsx | .txs | .pha | .php | .pla | .plp => none

/-- The mode of an instruction (R55). -/
def Instr.mode (i : Instr) : Mode :=
  match i.operand with
  | none => .implied
  | some o => o.mode

/-- The length of an instruction in bytes (R51). -/
def Instr.length (i : Instr) : Nat := 1 + i.mode.operandBytes

end Sys2Proof
end

