-- ==== Sys2Proof/Config.lean ====
section
/-! DEFINITION. The named parameters of 00_scope.md R7 that a run of the machine takes as an argument. -/

namespace Sys2Proof

/-- `ZP_POINTER_WRAP` (R7, R76): where the high byte of a zero-page pointer at 0xFF lies. -/
inductive ZpPointerWrap where
  | page0
  | linear
  deriving DecidableEq, Repr

/-- How a setting of `OPCODE_TABLE` (R7, R55) departs from the 65 default rows: a byte listed here has the operation and
mode given, or no entry; the first entry of a byte counts, and a byte not listed has its default (assumption 7). -/
abbrev OpcodeOverrides := List (Byte × Option (Operation × Mode))

/-- The parameters the source leaves open (R7). A state carries one setting and no step changes it
(assumption 2); the spec's defaults are `Machine.defaultConfig`. -/
structure Config where
  /-- `STATUS_BIT5`: bit 5 of the packed status byte (R22). -/
  statusBit5 : Bool
  /-- `ZP_POINTER_WRAP` (R76). -/
  zpPointerWrap : ZpPointerWrap
  /-- `PENALTY_ON_STORES` (R81). -/
  penaltyOnStores : Bool
  /-- `BASE_CYCLES` (R80): the opcodes whose base cost is not the default of R126, each with its cost;
  the first entry of an opcode counts. -/
  baseCycleOverrides : List (Byte × Nat)
  /-- `OPCODE_TABLE` (R55). -/
  opcodeOverrides : OpcodeOverrides
  deriving DecidableEq, Repr

/-- FREE VALUE: the base cost of an opcode that a setting of `OPCODE_TABLE` adds and `BASE_CYCLES` gives no cost (R7 has
`BASE_CYCLES` give one for every defined opcode). Nothing constrains it (assumption 6). -/
opaque freeBaseCycles : Byte → Nat

end Sys2Proof
end

