-- ==== Sys2Proof/Machine/Bits.lean ====
section
/-! DEFINITION. The byte and word helpers of 00_scope.md R8: extension, halves and concatenation. -/

namespace Sys2Proof.Machine

/-- `zext_16(b)`: a byte as a word, value unchanged (R8). -/
def zext16 (b : Byte) : Word := b.setWidth 16

/-- `hi(w) = w[15:8]` (R8). -/
def hiByte (w : Word) : Byte := w.extractLsb' 8 8

/-- `lo(w) = w[7:0]` (R8). -/
def loByte (w : Word) : Byte := w.extractLsb' 0 8

/-- `hi : lo`, the word `hi * 256 + lo` (R8). -/
def joinWord (hi lo : Byte) : Word := hi ++ lo

end Sys2Proof.Machine
end

