-- ==== Sys2Proof/Decode.lean ====
section
/-! DEFINITION. The opcode table (30_encoding.md R55, 70_reset_and_hazards.md R126), the decoder over it and over every
other setting of the parameter `OPCODE_TABLE` (00_scope.md R7), and an encoder
written separately from the encoding lines of R84 to R104. -/

namespace Sys2Proof

open Sys2Proof.Machine (hiByte loByte joinWord)

/-- What follows the opcode byte and the instruction it makes (R51, R52): nothing, one operand byte, or `abs16`. -/
inductive Form where
  | implied (i : Instr)
  | byte (mk : Byte → Instr)
  | word (mk : Word → Instr)

/-- The instruction of a form at operand bytes 0. -/
def Form.sample : Form → Instr
  | .implied i => i
  | .byte mk => mk 0x00
  | .word mk => mk 0x0000

/-- A row of the opcode table: "a (addressing-mode resolver, operation, base-cycle-cost) triple" for an opcode byte
(R55). The cycle cost is the default of R126. -/
structure OpcodeRow where
  opcode : Byte
  form : Form
  cycles : Nat

/-- The rows of LDA (R84). -/
def ldaRows : List OpcodeRow := [
  ⟨0xA9, .byte .ldaImm, 2⟩,
  ⟨0xA5, .byte .ldaZp, 3⟩,
  ⟨0xB5, .byte .ldaZpX, 4⟩,
  ⟨0xAD, .word .ldaAbs, 4⟩,
  ⟨0xBD, .word .ldaAbsX, 4⟩,
  ⟨0xB9, .word .ldaAbsY, 4⟩,
  ⟨0xA1, .byte .ldaIndX, 6⟩,
  ⟨0xB1, .byte .ldaIndY, 5⟩]

/-- The rows of LDX (R85). -/
def ldxRows : List OpcodeRow := [
  ⟨0xA2, .byte .ldxImm, 2⟩,
  ⟨0xA6, .byte .ldxZp, 3⟩,
  ⟨0xB6, .byte .ldxZpY, 4⟩,
  ⟨0xAE, .word .ldxAbs, 4⟩,
  ⟨0xBE, .word .ldxAbsY, 4⟩]

/-- The rows of LDY (R86). -/
def ldyRows : List OpcodeRow := [
  ⟨0xA0, .byte .ldyImm, 2⟩,
  ⟨0xA4, .byte .ldyZp, 3⟩,
  ⟨0xB4, .byte .ldyZpX, 4⟩,
  ⟨0xAC, .word .ldyAbs, 4⟩,
  ⟨0xBC, .word .ldyAbsX, 4⟩]

/-- The rows of STA, STX, STY (R87 to R89). -/
def storeRows : List OpcodeRow := [
  ⟨0x85, .byte .staZp, 3⟩,
  ⟨0x95, .byte .staZpX, 4⟩,
  ⟨0x8D, .word .staAbs, 4⟩,
  ⟨0x9D, .word .staAbsX, 5⟩,
  ⟨0x99, .word .staAbsY, 5⟩,
  ⟨0x81, .byte .staIndX, 6⟩,
  ⟨0x91, .byte .staIndY, 6⟩,
  ⟨0x86, .byte .stxZp, 3⟩,
  ⟨0x96, .byte .stxZpY, 4⟩,
  ⟨0x8E, .word .stxAbs, 4⟩,
  ⟨0x84, .byte .styZp, 3⟩,
  ⟨0x94, .byte .styZpX, 4⟩,
  ⟨0x8C, .word .styAbs, 4⟩]

/-- The rows of TAX, TAY, TXA, TYA, TSX, TXS (R90 to R95). -/
def transferRows : List OpcodeRow := [
  ⟨0xAA, .implied .tax, 2⟩,
  ⟨0xA8, .implied .tay, 2⟩,
  ⟨0x8A, .implied .txa, 2⟩,
  ⟨0x98, .implied .tya, 2⟩,
  ⟨0xBA, .implied .tsx, 2⟩,
  ⟨0x9A, .implied .txs, 2⟩]

/-- The rows of PHA, PHP, PLA, PLP (R98 to R101). -/
def stackRows : List OpcodeRow := [
  ⟨0x48, .implied .pha, 3⟩,
  ⟨0x08, .implied .php, 3⟩,
  ⟨0x68, .implied .pla, 4⟩,
  ⟨0x28, .implied .plp, 4⟩]

/-- The rows of AND (R102). -/
def andRows : List OpcodeRow := [
  ⟨0x29, .byte .andImm, 2⟩,
  ⟨0x25, .byte .andZp, 3⟩,
  ⟨0x35, .byte .andZpX, 4⟩,
  ⟨0x2D, .word .andAbs, 4⟩,
  ⟨0x3D, .word .andAbsX, 4⟩,
  ⟨0x39, .word .andAbsY, 4⟩,
  ⟨0x21, .byte .andIndX, 6⟩,
  ⟨0x31, .byte .andIndY, 5⟩]

/-- The rows of EOR (R103). -/
def eorRows : List OpcodeRow := [
  ⟨0x49, .byte .eorImm, 2⟩,
  ⟨0x45, .byte .eorZp, 3⟩,
  ⟨0x55, .byte .eorZpX, 4⟩,
  ⟨0x4D, .word .eorAbs, 4⟩,
  ⟨0x5D, .word .eorAbsX, 4⟩,
  ⟨0x59, .word .eorAbsY, 4⟩,
  ⟨0x41, .byte .eorIndX, 6⟩,
  ⟨0x51, .byte .eorIndY, 5⟩]

/-- The rows of ORA (R104). -/
def oraRows : List OpcodeRow := [
  ⟨0x09, .byte .oraImm, 2⟩,
  ⟨0x05, .byte .oraZp, 3⟩,
  ⟨0x15, .byte .oraZpX, 4⟩,
  ⟨0x0D, .word .oraAbs, 4⟩,
  ⟨0x1D, .word .oraAbsX, 4⟩,
  ⟨0x19, .word .oraAbsY, 4⟩,
  ⟨0x01, .byte .oraIndX, 6⟩,
  ⟨0x11, .byte .oraIndY, 5⟩]

/-- The default of `OPCODE_TABLE` (R55): 65 rows. -/
def opcodeRows : List OpcodeRow :=
  ldaRows ++ ldxRows ++ ldyRows ++ storeRows ++ transferRows ++
    stackRows ++ andRows ++ eorRows ++ oraRows

/-- The default row of an opcode byte; none for the 191 bytes of R57. -/
def defaultRow (op : Byte) : Option OpcodeRow := opcodeRows.find? (fun r => r.opcode == op)

/-- The row of a pair of operation and mode; none for a pair that no rule of R84 to R104 has (assumption 7). -/
def rowOf (o : Operation) (m : Mode) : Option OpcodeRow :=
  opcodeRows.find? (fun r => r.form.sample.operation == o && r.form.sample.mode == m)

/-- Table dispatch (R64) under a setting of `OPCODE_TABLE`: what an opcode byte makes; none if it has no entry. -/
def lookupOpcode (table : OpcodeOverrides) (op : Byte) : Option Form :=
  match table.lookup op with
  | some (some (o, m)) => (rowOf o m).map OpcodeRow.form
  | some none => none
  | none => (defaultRow op).map OpcodeRow.form

/-- Why bytes are no instruction. -/
inductive DecodeError where
  /-- The byte has no row (R57, R105). -/
  | unknownOpcode (op : Byte)
  /-- The list ends before the instruction does; no fetch meets this, for memory has no end (R50). -/
  | truncated
  deriving DecidableEq, Repr

/-- Decode the instruction at the head of a byte list, under a setting of `OPCODE_TABLE`, and give the bytes after it
(R50 to R53). -/
def decodeWith (table : OpcodeOverrides) : List Byte → Except DecodeError (Instr × List Byte)
  | [] => .error .truncated
  | op :: rest =>
    match lookupOpcode table op with
    | none => .error (.unknownOpcode op)
    | some form =>
      match form, rest with
      | .implied i, rest => .ok (i, rest)
      | .byte mk, b :: rest => .ok (mk b, rest)
      | .word mk, lo :: hi :: rest => .ok (mk (joinWord hi lo), rest)
      | .byte _, [] => .error .truncated
      | .word _, [] => .error .truncated
      | .word _, [_] => .error .truncated

/-- Decode under the default `OPCODE_TABLE`. -/
def decode (bytes : List Byte) : Except DecodeError (Instr × List Byte) := decodeWith [] bytes

/-- The default opcode byte of an instruction, from the encoding lines of R84 to R104. -/
def Instr.opcode : Instr → Byte
  | .ldaImm _ => 0xA9
  | .ldaZp _ => 0xA5
  | .ldaZpX _ => 0xB5
  | .ldaAbs _ => 0xAD
  | .ldaAbsX _ => 0xBD
  | .ldaAbsY _ => 0xB9
  | .ldaIndX _ => 0xA1
  | .ldaIndY _ => 0xB1
  | .ldxImm _ => 0xA2
  | .ldxZp _ => 0xA6
  | .ldxZpY _ => 0xB6
  | .ldxAbs _ => 0xAE
  | .ldxAbsY _ => 0xBE
  | .ldyImm _ => 0xA0
  | .ldyZp _ => 0xA4
  | .ldyZpX _ => 0xB4
  | .ldyAbs _ => 0xAC
  | .ldyAbsX _ => 0xBC
  | .staZp _ => 0x85
  | .staZpX _ => 0x95
  | .staAbs _ => 0x8D
  | .staAbsX _ => 0x9D
  | .staAbsY _ => 0x99
  | .staIndX _ => 0x81
  | .staIndY _ => 0x91
  | .stxZp _ => 0x86
  | .stxZpY _ => 0x96
  | .stxAbs _ => 0x8E
  | .styZp _ => 0x84
  | .styZpX _ => 0x94
  | .styAbs _ => 0x8C
  | .tax => 0xAA
  | .tay => 0xA8
  | .txa => 0x8A
  | .tya => 0x98
  | .tsx => 0xBA
  | .txs => 0x9A
  | .pha => 0x48
  | .php => 0x08
  | .pla => 0x68
  | .plp => 0x28
  | .andImm _ => 0x29
  | .andZp _ => 0x25
  | .andZpX _ => 0x35
  | .andAbs _ => 0x2D
  | .andAbsX _ => 0x3D
  | .andAbsY _ => 0x39
  | .andIndX _ => 0x21
  | .andIndY _ => 0x31
  | .eorImm _ => 0x49
  | .eorZp _ => 0x45
  | .eorZpX _ => 0x55
  | .eorAbs _ => 0x4D
  | .eorAbsX _ => 0x5D
  | .eorAbsY _ => 0x59
  | .eorIndX _ => 0x41
  | .eorIndY _ => 0x51
  | .oraImm _ => 0x09
  | .oraZp _ => 0x05
  | .oraZpX _ => 0x15
  | .oraAbs _ => 0x0D
  | .oraAbsX _ => 0x1D
  | .oraAbsY _ => 0x19
  | .oraIndX _ => 0x01
  | .oraIndY _ => 0x11

/-- The operand bytes of a memory operand, `abs16` low byte first (R52, R38). -/
def Address.bytes : Address → List Byte
  | .zeroPage z | .zeroPageX z | .zeroPageY z | .indirectX z | .indirectY z => [z]
  | .absolute w | .absoluteX w | .absoluteY w => [loByte w, hiByte w]

/-- The operand bytes of an operand (R52). -/
def Operand.bytes : Operand → List Byte
  | .immediate v => [v]
  | .memory m => m.bytes

/-- The operand bytes of an instruction (R51, R52). -/
def Instr.operandBytes (i : Instr) : List Byte :=
  match i.operand with
  | none => []
  | some o => o.bytes

/-- The bytes of an instruction under the default `OPCODE_TABLE`, the opcode first (R50). -/
def encode (i : Instr) : List Byte := i.opcode :: i.operandBytes

/-- The first three bytes of an instruction whose bits are `w` numbered as opcode_table.json numbers them (the second
byte is bits 15..8), every bit from `nbits` on being 0. -/
def tableBytes (nbits w : Nat) : List Byte :=
  let w := w % 2 ^ nbits
  [BitVec.ofNat 8 w, BitVec.ofNat 8 (w / 256), BitVec.ofNat 8 (w / 65536)]

/-- The instruction the decoder reads from the bits `w` of an opcode-table row. -/
def decodeTableWord (nbits w : Nat) : Option Instr :=
  match decode (tableBytes nbits w) with
  | .ok (i, _) => some i
  | .error _ => none

end Sys2Proof
end

