-- ==== Sys2Proof/Machine/Defaults.lean ====
section
/-! DEFINITION. The spec's default setting of the parameters of 00_scope.md R7. -/

namespace Sys2Proof.Machine

/-- The defaults of R7: `STATUS_BIT5 = 0` (D6), `ZP_POINTER_WRAP = Page0` (D7), `PENALTY_ON_STORES = true` (D5), and
`BASE_CYCLES` the table of R126 with no departure (D4), and `OPCODE_TABLE` the 65 rows of R55 with no departure (D2,
D3). The spec's own decisions (assumptions 3 to 7). -/
def defaultConfig : Config where
  statusBit5 := false
  zpPointerWrap := .page0
  penaltyOnStores := true
  baseCycleOverrides := []
  opcodeOverrides := []

end Sys2Proof.Machine
end

