-- ==== Sys2Proof/Machine/Memory.lean ====
section
/-! DEFINITION. The 64 KiB store of 20_memory.md R32 as a sorted list of cells in one canonical form: addresses rise
strictly, lie below 65536, and no cell holds what an unlisted address reads as. -/

namespace Sys2Proof.Machine

/-- The store `M` of R32: the bytes that differ from `unlistedByte`. -/
abbrev Memory := List Host.Cell

/-- What an address that is not listed reads as: `INIT_MEM` of a fresh machine (R32), 0x00 everywhere.
DESIGN CHOICE, unsafe: the spec gives no contents at creation (assumption 1). -/
def unlistedByte : Byte := 0x00

/-- The canonical form of a memory. -/
abbrev Memory.wf (m : Memory) : Prop :=
  m.Pairwise (fun c d => c.1 < d.1) ∧ ∀ c ∈ m, c.1 < 65536 ∧ c.2 ≠ unlistedByte

/-- The byte at an address. -/
def Memory.load : Memory → Nat → Byte
  | [], _ => unlistedByte
  | (k, v) :: m, a => if k = a then v else Memory.load m a

/-- Put a cell before the first cell of a higher address. -/
def Memory.insertCell : Memory → Nat → Byte → Memory
  | [], a, v => [(a, v)]
  | (k, w) :: m, a, v => if a < k then (a, v) :: (k, w) :: m else (k, w) :: Memory.insertCell m a v

/-- Change the byte at one address: the old cell goes, and the new one is listed unless it holds `unlistedByte`. -/
def Memory.store (m : Memory) (a : Nat) (v : Byte) : Memory :=
  let cleared := m.filter (fun c => c.1 != a)
  if v = unlistedByte then cleared else Memory.insertCell cleared a v

end Sys2Proof.Machine
end

