-- ==== Sys2Proof/Machine/State.lean ====
section
/-! DEFINITION. The state of the machine (10_state.md R11), its reset value (R30), and the reasons a step can stop. -/

namespace Sys2Proof.Machine

/-- What `step()` returns (00_scope.md R10). -/
inductive StepResult where
  /-- Success, with the cycle count (R80). -/
  | ok (cycles : Nat)
  /-- The byte fetched as an opcode has no table entry (R105). -/
  | unknownOpcode (opcode : Byte)
  deriving DecidableEq, Repr

/-- The architectural state of R11, and the model's own fields: the value the last step returned, the opcode byte it
fetched, and the parameters of R7. -/
structure State where
  /-- Accumulator A (R12). -/
  a : Byte
  /-- Index register X (R13). -/
  x : Byte
  /-- Index register Y (R14). -/
  y : Byte
  /-- Stack pointer SP, an offset into page 1 (R15). -/
  sp : Byte
  /-- Program counter PC, the address of the next instruction byte to fetch (R16). -/
  pc : Word
  /-- Carry (R18, R19). -/
  c : Bool
  /-- Zero (R18, R21). -/
  z : Bool
  /-- Interrupt-Disable (R18, R20). -/
  i : Bool
  /-- Decimal-Mode (R18, R20). -/
  d : Bool
  /-- Break, a stored flag (R18, R20). -/
  b : Bool
  /-- Overflow (R18, R19). -/
  v : Bool
  /-- Negative (R18, R21). -/
  n : Bool
  /-- The memory store M (R32). -/
  mem : Memory
  /-- The MODEL's own field: what the last `step()` returned (R10), none when nothing has been returned since reset.
  No transition reads it (assumption 8). -/
  result : Option StepResult
  /-- The MODEL's own field: the opcode byte the step under way has fetched, R61's local `op`, which the cycle count
  names (R80). Every step writes it before it reads it (assumption 19). -/
  opcode : Byte
  /-- The MODEL's own field: the setting of the parameters of R7. No step changes it (assumption 2). -/
  config : Config
  deriving DecidableEq, Repr

/-- The machine right after `reset()` (R30, R117) with nothing listed in memory: PC is the word at 0xFFFC/0xFFFD, here
0x0000 (assumption 1), and the parameters stand at the spec's defaults. -/
def State.reset : State where
  a := 0x00
  x := 0x00
  y := 0x00
  sp := 0xFF
  pc := 0x0000
  c := false
  z := false
  i := false
  d := false
  b := false
  v := false
  n := false
  mem := []
  result := none
  opcode := 0x00
  config := defaultConfig

/-- The reasons a step stops the run. -/
inductive Fault where
  /-- Raised by `step` alone, when the byte fetched as an opcode has no entry (R57, R105). It carries the byte and the
  state of R105, from which a host that steps on would start (R110). Safe: the spec ends the run there (R111). -/
  | unknownOpcode (opcode : Byte) (after : State)
  deriving DecidableEq, Repr

/-- The reasons a step has no meaning. -/
inductive Refusal where
  /-- An instruction of the table without a meaning in this model, named by its mnemonic. Raised by no arm of `exec`
  now: all 65 rows have their meaning. Safe: the run stops. -/
  | notModelled (mnemonic : String)
  deriving DecidableEq, Repr

/-- The outcome of a step or of one instruction. -/
abbrev StepOutcome := Host.Outcome State Fault Refusal

end Sys2Proof.Machine
end

