-- ==== Sys2Proof/Machine/Cycles.lean ====
section
/-! DEFINITION. The cycle cost of a step (40_dispatch_addressing.md R80, R81). -/

namespace Sys2Proof.Machine

/-- The default of `BASE_CYCLES` (R126); a free value for a byte with no row there. -/
def defaultBaseCycles (op : Byte) : Nat :=
  match defaultRow op with
  | some row => row.cycles
  | none => freeBaseCycles op

/-- `BASE_CYCLES[op]` (R80): the state's departure from the default, if it lists one. -/
def baseCycles (cfg : Config) (op : Byte) : Nat :=
  match cfg.baseCycleOverrides.lookup op with
  | some n => n
  | none => defaultBaseCycles op

/-- The page-crossing penalty (R81). Only the modes that can cross give `crossed = true` (R77). -/
def penalty (cfg : Config) (crossed : Bool) (isStore : Bool) : Nat :=
  if crossed && (!isStore || cfg.penaltyOnStores) then 1 else 0

/-- `cycles(op, mode, r)` (R80). -/
def cycles (cfg : Config) (op : Byte) (crossed : Bool) (isStore : Bool) : Nat :=
  baseCycles cfg op + penalty cfg crossed isStore

end Sys2Proof.Machine
end

