-- ==== Sys2Proof/Machine/Ops.lean ====
section
/-! DEFINITION. The named operations on registers, memory and the stack (10_state.md, 20_memory.md, 43_stack.md), the
reset transition (70_reset_and_hazards.md), and the one failure (60_exceptions.md). -/

namespace Sys2Proof.Machine

/-- `A <- v` (R9, R12). -/
def State.setA (s : State) (v : Byte) : State := { s with a := v }

/-- `X <- v` (R9, R13). -/
def State.setX (s : State) (v : Byte) : State := { s with x := v }

/-- `Y <- v` (R9, R14). -/
def State.setY (s : State) (v : Byte) : State := { s with y := v }

/-- `SP <- v` (R9, R15). -/
def State.setSp (s : State) (v : Byte) : State := { s with sp := v }

/-- `PC <- target` (R9, R16). -/
def State.setPc (s : State) (target : Word) : State := { s with pc := target }

/-- Replace the store. -/
def State.setMem (s : State) (m : Memory) : State := { s with mem := m }

/-- Record what `step()` returns (R10). -/
def State.setResult (s : State) (r : Option StepResult) : State := { s with result := r }

/-- Record the opcode byte the step has fetched (R61). -/
def State.setOpcode (s : State) (op : Byte) : State := { s with opcode := op }

/-- `readByte(address)` (R33). A `Word` is an address modulo 65536 already (R42). -/
def readByte (s : State) (addr : Word) : Byte := Memory.load s.mem addr.toNat

/-- `writeByte(address, value)` (R34). -/
def writeByte (s : State) (addr : Word) (v : Byte) : State := s.setMem (Memory.store s.mem addr.toNat v)

/-- `readWord(address)`, little-endian, the `+1` modulo 65536 (R35, R38). -/
def readWord (s : State) (addr : Word) : Word :=
  let lo := readByte s addr
  let hi := readByte s (addr + 1)
  joinWord hi lo

/-- `writeWord(address, value)`, the low byte first (R36). -/
def writeWord (s : State) (addr : Word) (w : Word) : State :=
  writeByte (writeByte s addr (loByte w)) (addr + 1) (hiByte w)

/-- The stack address of an SP value: `0x0100 + SP` (R15). -/
def stackAddress (sp : Byte) : Word := 0x0100 + zext16 sp

/-- `stackPush(value)`: write at `0x0100 + SP`, then SP −₈ 1 (R96). -/
def stackPush (s : State) (v : Byte) : State :=
  let s := writeByte s (stackAddress s.sp) v
  s.setSp (s.sp - 1)

/-- `stackPop()`: SP +₈ 1, then read at `0x0100 + SP` (R97). -/
def stackPop (s : State) : Byte × State :=
  let s := s.setSp (s.sp + 1)
  (readByte s (stackAddress s.sp), s)

/-- `fetchByte()` (R62). -/
def fetchByte (s : State) : Byte × State := (readByte s s.pc, s.setPc (s.pc + 1))

/-- `fetchWord()` (R63). -/
def fetchWord (s : State) : Word × State := (readWord s s.pc, s.setPc (s.pc + 2))

/-- `reset()` (R117): the vector is read from the memory as it is, no byte is written (R119), nothing is returned; the
model's own `opcode` is cleared with the rest (assumption 19). -/
def resetCpu (s : State) : State :=
  { s with
    pc := readWord s 0xFFFC
    sp := 0xFF
    a := 0x00
    x := 0x00
    y := 0x00
    c := false
    z := false
    i := false
    d := false
    b := false
    v := false
    n := false
    result := none
    opcode := 0x00 }

/-- `return Ok(cycles)`: the end of every instruction of the table (R61, R106). -/
def returnOk (s : State) (cycles : Nat) : StepOutcome := .next (s.setResult (some (.ok cycles)))

/-- `raise UnknownOpcode(op)` in the state after the opcode fetch (R105): nothing is saved or vectored (R109), the byte
is returned, and the run ends (R111). -/
def raiseUnknownOpcode (s : State) (op : Byte) : StepOutcome :=
  .fault (.unknownOpcode op (s.setResult (some (.unknownOpcode op))))

end Sys2Proof.Machine
end

