-- ==== Sys2Proof/Machine/Flags.lean ====
section
/-! DEFINITION. The flag computations of 10_state.md: `setZN` (R24), `getStatus` (R22) and `setStatus` (R23). No
instruction computes a carry or an overflow (R19). -/

namespace Sys2Proof.Machine

/-- `setZN(v)`: `Z <- (v == 0); N <- (v[7] == 1)`, no other flag (R24). -/
def State.setZN (s : State) (v : Byte) : State := { s with z := v == 0x00, n := v[7] }

/-- `getStatus()`: the seven flags packed, bit 5 being `STATUS_BIT5` (R22). -/
def getStatus (s : State) : Byte :=
  (if s.c then 0x01 else 0x00) ||| (if s.z then 0x02 else 0x00) ||| (if s.i then 0x04 else 0x00) |||
  (if s.d then 0x08 else 0x00) ||| (if s.b then 0x10 else 0x00) ||| (if s.config.statusBit5 then 0x20 else 0x00) |||
  (if s.v then 0x40 else 0x00) ||| (if s.n then 0x80 else 0x00)

/-- `setStatus(byte)`: all seven flags from their bits; bit 5 is read by nothing (R23). -/
def State.setStatus (s : State) (b : Byte) : State :=
  { s with
    c := b[0]
    z := b[1]
    i := b[2]
    d := b[3]
    b := b[4]
    v := b[6]
    n := b[7] }

end Sys2Proof.Machine
end

