-- ==== Sys2Proof/Machine/Operands.lean ====
section
/-! DEFINITION. The addressing modes of 40_dispatch_addressing.md: the effective address of every memory operand (R66 to
R77) and the operand byte of a read operation (R78). The operand bytes have been fetched before (R61, assumption 12). -/

namespace Sys2Proof.Machine

/-- `Addr(ea, crossed)` of R61: the effective address, and whether a page was crossed (R77). -/
structure EffectiveAddress where
  ea : Word
  crossed : Bool
  deriving DecidableEq, Repr

/-- The zero-page pointer read (R76): low byte at `z`, high byte within page 0 or, for `Linear`, at the next address. -/
def zpReadWord (s : State) (z : Byte) : Word :=
  let lo := readByte s (zext16 z)
  let hi :=
    match s.config.zpPointerWrap with
    | .page0 => readByte s (zext16 (z + 1))
    | .linear => readByte s (zext16 z + 1)
  joinWord hi lo

/-- A 16-bit indexed address and its crossing: the high byte of the effective address against the base's (R72, R73,
R75, R77). -/
def indexed (base : Word) (index : Byte) : EffectiveAddress :=
  let ea := base + zext16 index
  { ea := ea, crossed := hiByte ea != hiByte base }

/-- `resolve(mode)` for the modes that give an address (R68 to R75). -/
def resolve (m : Address) (s : State) : EffectiveAddress :=
  match m with
  | .zeroPage z => { ea := zext16 z, crossed := false }
  | .zeroPageX z => { ea := zext16 (z + s.x), crossed := false }
  | .zeroPageY z => { ea := zext16 (z + s.y), crossed := false }
  | .absolute w => { ea := w, crossed := false }
  | .absoluteX w => indexed w s.x
  | .absoluteY w => indexed w s.y
  | .indirectX z => { ea := zpReadWord s (z + s.x), crossed := false }
  | .indirectY z => indexed (zpReadWord s z) s.y

/-- The operand `v` of a read operation (R78): the immediate byte (R67), or one read at the effective address. -/
def operandByte (o : Operand) (s : State) : Byte :=
  match o with
  | .immediate v => v
  | .memory m => readByte s (resolve m s).ea

/-- The `crossed` value of an operand (R77): false for Immediate. -/
def operandCrossed (o : Operand) (s : State) : Bool :=
  match o with
  | .immediate _ => false
  | .memory m => (resolve m s).crossed

end Sys2Proof.Machine
end

