-- ==== Sys2Proof/Machine/Operation.lean ====
section
/-! DEFINITION. The three kinds of operation of 40_dispatch_addressing.md R65, over which every meaning is written:
read, write and implied. The cost is that of the opcode byte the step has fetched (R80). -/

namespace Sys2Proof.Machine

/-- A read operation (R65, R78): `act` gets the operand byte; the cost takes the crossing penalty (R81). -/
def readOperation (o : Operand) (act : State → Byte → State) (s : State) : StepOutcome :=
  returnOk (act s (operandByte o s)) (cycles s.config s.opcode (operandCrossed o s) false)

/-- A write operation (R65, R79): one write at the effective address, which is not read first; the cost takes the
crossing penalty if `PENALTY_ON_STORES` (R81). -/
def writeOperation (m : Address) (value : Byte) (s : State) : StepOutcome :=
  let r := resolve m s
  returnOk (writeByte s r.ea value) (cycles s.config s.opcode r.crossed true)

/-- An implied operation (R65, R66): no operand, the base cost alone. -/
def impliedOperation (act : State → State) (s : State) : StepOutcome :=
  returnOk (act s) (cycles s.config s.opcode false false)

end Sys2Proof.Machine
end

