-- ==== Sys2Proof/Machine/Load.lean ====
section
/-! DEFINITION. The loads LDA, LDX and LDY (41_load_store.md R84 to R86). -/

namespace Sys2Proof.Machine

/-- LDA (R84): `A <- v; setZN(v)`. -/
def lda (o : Operand) (s : State) : StepOutcome :=
  readOperation o (fun s v => (s.setA v).setZN v) s

/-- LDX (R85): `X <- v; setZN(v)`. -/
def ldx (o : Operand) (s : State) : StepOutcome :=
  readOperation o (fun s v => (s.setX v).setZN v) s

/-- LDY (R86): `Y <- v; setZN(v)`. -/
def ldy (o : Operand) (s : State) : StepOutcome :=
  readOperation o (fun s v => (s.setY v).setZN v) s

/-- LDA #$ii: LDA Immediate, 0xA9 (R84, R67). -/
def execLdaImm (v : Byte) (s : State) : StepOutcome := lda (.immediate v) s

/-- LDA $zz: LDA Zero-page, 0xA5 (R84, R68). -/
def execLdaZp (z : Byte) (s : State) : StepOutcome := lda (.memory (.zeroPage z)) s

/-- LDA $zz,X: LDA Zero-page,X, 0xB5 (R84, R69). -/
def execLdaZpX (z : Byte) (s : State) : StepOutcome := lda (.memory (.zeroPageX z)) s

/-- LDA $hhll: LDA Absolute, 0xAD (R84, R71). -/
def execLdaAbs (w : Word) (s : State) : StepOutcome := lda (.memory (.absolute w)) s

/-- LDA $hhll,X: LDA Absolute,X, 0xBD (R84, R72). -/
def execLdaAbsX (w : Word) (s : State) : StepOutcome := lda (.memory (.absoluteX w)) s

/-- LDA $hhll,Y: LDA Absolute,Y, 0xB9 (R84, R73). -/
def execLdaAbsY (w : Word) (s : State) : StepOutcome := lda (.memory (.absoluteY w)) s

/-- LDA ($zz,X): LDA Indirect,X, 0xA1 (R84, R74). -/
def execLdaIndX (z : Byte) (s : State) : StepOutcome := lda (.memory (.indirectX z)) s

/-- LDA ($zz),Y: LDA Indirect,Y, 0xB1 (R84, R75). -/
def execLdaIndY (z : Byte) (s : State) : StepOutcome := lda (.memory (.indirectY z)) s

/-- LDX #$ii: LDX Immediate, 0xA2 (R85, R67). -/
def execLdxImm (v : Byte) (s : State) : StepOutcome := ldx (.immediate v) s

/-- LDX $zz: LDX Zero-page, 0xA6 (R85, R68). -/
def execLdxZp (z : Byte) (s : State) : StepOutcome := ldx (.memory (.zeroPage z)) s

/-- LDX $zz,Y: LDX Zero-page,Y, 0xB6 (R85, R70). -/
def execLdxZpY (z : Byte) (s : State) : StepOutcome := ldx (.memory (.zeroPageY z)) s

/-- LDX $hhll: LDX Absolute, 0xAE (R85, R71). -/
def execLdxAbs (w : Word) (s : State) : StepOutcome := ldx (.memory (.absolute w)) s

/-- LDX $hhll,Y: LDX Absolute,Y, 0xBE (R85, R73). -/
def execLdxAbsY (w : Word) (s : State) : StepOutcome := ldx (.memory (.absoluteY w)) s

/-- LDY #$ii: LDY Immediate, 0xA0 (R86, R67). -/
def execLdyImm (v : Byte) (s : State) : StepOutcome := ldy (.immediate v) s

/-- LDY $zz: LDY Zero-page, 0xA4 (R86, R68). -/
def execLdyZp (z : Byte) (s : State) : StepOutcome := ldy (.memory (.zeroPage z)) s

/-- LDY $zz,X: LDY Zero-page,X, 0xB4 (R86, R69). -/
def execLdyZpX (z : Byte) (s : State) : StepOutcome := ldy (.memory (.zeroPageX z)) s

/-- LDY $hhll: LDY Absolute, 0xAC (R86, R71). -/
def execLdyAbs (w : Word) (s : State) : StepOutcome := ldy (.memory (.absolute w)) s

/-- LDY $hhll,X: LDY Absolute,X, 0xBC (R86, R72). -/
def execLdyAbsX (w : Word) (s : State) : StepOutcome := ldy (.memory (.absoluteX w)) s

end Sys2Proof.Machine
end

