-- ==== Sys2Proof/Machine/Logic.lean ====
section
/-! DEFINITION. The bitwise operations AND, EOR and ORA (44_logic.md R102 to R104). Z and N come from the new A. -/

namespace Sys2Proof.Machine

/-- AND (R102): `A <- A & v; setZN(A)`. -/
def andA (o : Operand) (s : State) : StepOutcome :=
  readOperation o (fun s v => (s.setA (s.a &&& v)).setZN (s.a &&& v)) s

/-- EOR (R103): `A <- A ^ v; setZN(A)`. -/
def eorA (o : Operand) (s : State) : StepOutcome :=
  readOperation o (fun s v => (s.setA (s.a ^^^ v)).setZN (s.a ^^^ v)) s

/-- ORA (R104): `A <- A | v; setZN(A)`. -/
def oraA (o : Operand) (s : State) : StepOutcome :=
  readOperation o (fun s v => (s.setA (s.a ||| v)).setZN (s.a ||| v)) s

/-- AND #$ii: AND Immediate, 0x29 (R102, R67). -/
def execAndImm (v : Byte) (s : State) : StepOutcome := andA (.immediate v) s

/-- AND $zz: AND Zero-page, 0x25 (R102, R68). -/
def execAndZp (z : Byte) (s : State) : StepOutcome := andA (.memory (.zeroPage z)) s

/-- AND $zz,X: AND Zero-page,X, 0x35 (R102, R69). -/
def execAndZpX (z : Byte) (s : State) : StepOutcome := andA (.memory (.zeroPageX z)) s

/-- AND $hhll: AND Absolute, 0x2D (R102, R71). -/
def execAndAbs (w : Word) (s : State) : StepOutcome := andA (.memory (.absolute w)) s

/-- AND $hhll,X: AND Absolute,X, 0x3D (R102, R72). -/
def execAndAbsX (w : Word) (s : State) : StepOutcome := andA (.memory (.absoluteX w)) s

/-- AND $hhll,Y: AND Absolute,Y, 0x39 (R102, R73). -/
def execAndAbsY (w : Word) (s : State) : StepOutcome := andA (.memory (.absoluteY w)) s

/-- AND ($zz,X): AND Indirect,X, 0x21 (R102, R74). -/
def execAndIndX (z : Byte) (s : State) : StepOutcome := andA (.memory (.indirectX z)) s

/-- AND ($zz),Y: AND Indirect,Y, 0x31 (R102, R75). -/
def execAndIndY (z : Byte) (s : State) : StepOutcome := andA (.memory (.indirectY z)) s

/-- EOR #$ii: EOR Immediate, 0x49 (R103, R67). -/
def execEorImm (v : Byte) (s : State) : StepOutcome := eorA (.immediate v) s

/-- EOR $zz: EOR Zero-page, 0x45 (R103, R68). -/
def execEorZp (z : Byte) (s : State) : StepOutcome := eorA (.memory (.zeroPage z)) s

/-- EOR $zz,X: EOR Zero-page,X, 0x55 (R103, R69). -/
def execEorZpX (z : Byte) (s : State) : StepOutcome := eorA (.memory (.zeroPageX z)) s

/-- EOR $hhll: EOR Absolute, 0x4D (R103, R71). -/
def execEorAbs (w : Word) (s : State) : StepOutcome := eorA (.memory (.absolute w)) s

/-- EOR $hhll,X: EOR Absolute,X, 0x5D (R103, R72). -/
def execEorAbsX (w : Word) (s : State) : StepOutcome := eorA (.memory (.absoluteX w)) s

/-- EOR $hhll,Y: EOR Absolute,Y, 0x59 (R103, R73). -/
def execEorAbsY (w : Word) (s : State) : StepOutcome := eorA (.memory (.absoluteY w)) s

/-- EOR ($zz,X): EOR Indirect,X, 0x41 (R103, R74). -/
def execEorIndX (z : Byte) (s : State) : StepOutcome := eorA (.memory (.indirectX z)) s

/-- EOR ($zz),Y: EOR Indirect,Y, 0x51 (R103, R75). -/
def execEorIndY (z : Byte) (s : State) : StepOutcome := eorA (.memory (.indirectY z)) s

/-- ORA #$ii: ORA Immediate, 0x09 (R104, R67). -/
def execOraImm (v : Byte) (s : State) : StepOutcome := oraA (.immediate v) s

/-- ORA $zz: ORA Zero-page, 0x05 (R104, R68). -/
def execOraZp (z : Byte) (s : State) : StepOutcome := oraA (.memory (.zeroPage z)) s

/-- ORA $zz,X: ORA Zero-page,X, 0x15 (R104, R69). -/
def execOraZpX (z : Byte) (s : State) : StepOutcome := oraA (.memory (.zeroPageX z)) s

/-- ORA $hhll: ORA Absolute, 0x0D (R104, R71). -/
def execOraAbs (w : Word) (s : State) : StepOutcome := oraA (.memory (.absolute w)) s

/-- ORA $hhll,X: ORA Absolute,X, 0x1D (R104, R72). -/
def execOraAbsX (w : Word) (s : State) : StepOutcome := oraA (.memory (.absoluteX w)) s

/-- ORA $hhll,Y: ORA Absolute,Y, 0x19 (R104, R73). -/
def execOraAbsY (w : Word) (s : State) : StepOutcome := oraA (.memory (.absoluteY w)) s

/-- ORA ($zz,X): ORA Indirect,X, 0x01 (R104, R74). -/
def execOraIndX (z : Byte) (s : State) : StepOutcome := oraA (.memory (.indirectX z)) s

/-- ORA ($zz),Y: ORA Indirect,Y, 0x11 (R104, R75). -/
def execOraIndY (z : Byte) (s : State) : StepOutcome := oraA (.memory (.indirectY z)) s

end Sys2Proof.Machine
end

