-- ==== Sys2Proof/Machine/Stack.lean ====
section
/-! DEFINITION. The stack instructions PHA, PHP, PLA and PLP (43_stack.md R98 to R101). -/

namespace Sys2Proof.Machine

/-- The effect of PLA (R100): `v <- stackPop(); A <- v; setZN(A)`. -/
def pullA (s : State) : State :=
  let (v, s) := stackPop s
  (s.setA v).setZN v

/-- The effect of PLP (R101): `b <- stackPop(); setStatus(b)`, with no Z or N derivation. -/
def pullStatus (s : State) : State :=
  let (b, s) := stackPop s
  s.setStatus b

/-- PHA, 0x48 (R98, R66): `stackPush(A)`. -/
def execPha (s : State) : StepOutcome :=
  impliedOperation (fun s => stackPush s s.a) s

/-- PHP, 0x08 (R99, R66): `stackPush(getStatus())`. -/
def execPhp (s : State) : StepOutcome :=
  impliedOperation (fun s => stackPush s (getStatus s)) s

/-- PLA, 0x68 (R100, R66): `A <- stackPop(); setZN(A)`. -/
def execPla (s : State) : StepOutcome :=
  impliedOperation pullA s

/-- PLP, 0x28 (R101, R66): `setStatus(stackPop())`. -/
def execPlp (s : State) : StepOutcome :=
  impliedOperation pullStatus s

end Sys2Proof.Machine
end

