-- ==== Sys2Proof/Machine/Store.lean ====
section
/-! DEFINITION. The stores STA, STX and STY (41_load_store.md R87 to R89). They write no flag. -/

namespace Sys2Proof.Machine

/-- STA (R87): `MemWrite(ea, 1, A)`. -/
def sta (m : Address) (s : State) : StepOutcome := writeOperation m s.a s

/-- STX (R88): `MemWrite(ea, 1, X)`. -/
def stx (m : Address) (s : State) : StepOutcome := writeOperation m s.x s

/-- STY (R89): `MemWrite(ea, 1, Y)`. -/
def sty (m : Address) (s : State) : StepOutcome := writeOperation m s.y s

/-- STA $zz: STA Zero-page, 0x85 (R87, R68). -/
def execStaZp (z : Byte) (s : State) : StepOutcome := sta (.zeroPage z) s

/-- STA $zz,X: STA Zero-page,X, 0x95 (R87, R69). -/
def execStaZpX (z : Byte) (s : State) : StepOutcome := sta (.zeroPageX z) s

/-- STA $hhll: STA Absolute, 0x8D (R87, R71). -/
def execStaAbs (w : Word) (s : State) : StepOutcome := sta (.absolute w) s

/-- STA $hhll,X: STA Absolute,X, 0x9D (R87, R72). -/
def execStaAbsX (w : Word) (s : State) : StepOutcome := sta (.absoluteX w) s

/-- STA $hhll,Y: STA Absolute,Y, 0x99 (R87, R73). -/
def execStaAbsY (w : Word) (s : State) : StepOutcome := sta (.absoluteY w) s

/-- STA ($zz,X): STA Indirect,X, 0x81 (R87, R74). -/
def execStaIndX (z : Byte) (s : State) : StepOutcome := sta (.indirectX z) s

/-- STA ($zz),Y: STA Indirect,Y, 0x91 (R87, R75). -/
def execStaIndY (z : Byte) (s : State) : StepOutcome := sta (.indirectY z) s

/-- STX $zz: STX Zero-page, 0x86 (R88, R68). -/
def execStxZp (z : Byte) (s : State) : StepOutcome := stx (.zeroPage z) s

/-- STX $zz,Y: STX Zero-page,Y, 0x96 (R88, R70). -/
def execStxZpY (z : Byte) (s : State) : StepOutcome := stx (.zeroPageY z) s

/-- STX $hhll: STX Absolute, 0x8E (R88, R71). -/
def execStxAbs (w : Word) (s : State) : StepOutcome := stx (.absolute w) s

/-- STY $zz: STY Zero-page, 0x84 (R89, R68). -/
def execStyZp (z : Byte) (s : State) : StepOutcome := sty (.zeroPage z) s

/-- STY $zz,X: STY Zero-page,X, 0x94 (R89, R69). -/
def execStyZpX (z : Byte) (s : State) : StepOutcome := sty (.zeroPageX z) s

/-- STY $hhll: STY Absolute, 0x8C (R89, R71). -/
def execStyAbs (w : Word) (s : State) : StepOutcome := sty (.absolute w) s

end Sys2Proof.Machine
end

