-- ==== Sys2Proof/Machine/Transfer.lean ====
section
/-! DEFINITION. The register transfers (42_transfer.md R90 to R95). All but TXS set Z and N from the new destination value. -/

namespace Sys2Proof.Machine

/-- TAX, 0xAA (R90, R66): `X <- A; setZN(X)`. -/
def execTax (s : State) : StepOutcome :=
  impliedOperation (fun s => (s.setX s.a).setZN s.a) s

/-- TAY, 0xA8 (R91, R66): `Y <- A; setZN(Y)`. -/
def execTay (s : State) : StepOutcome :=
  impliedOperation (fun s => (s.setY s.a).setZN s.a) s

/-- TXA, 0x8A (R92, R66): `A <- X; setZN(A)`. -/
def execTxa (s : State) : StepOutcome :=
  impliedOperation (fun s => (s.setA s.x).setZN s.x) s

/-- TYA, 0x98 (R93, R66): `A <- Y; setZN(A)`. -/
def execTya (s : State) : StepOutcome :=
  impliedOperation (fun s => (s.setA s.y).setZN s.y) s

/-- TSX, 0xBA (R94, R66): `X <- SP; setZN(X)`. -/
def execTsx (s : State) : StepOutcome :=
  impliedOperation (fun s => (s.setX s.sp).setZN s.sp) s

/-- TXS, 0x9A (R95, R66): `SP <- X`. -/
def execTxs (s : State) : StepOutcome :=
  impliedOperation (fun s => s.setSp s.x) s

end Sys2Proof.Machine
end

