-- ==== Sys2Proof/Machine/Dispatch.lean ====
section
/-! DEFINITION. exec: one arm per constructor of Instr, each a direct call of its meaning. -/

namespace Sys2Proof.Machine

/-- What an instruction does, in the state whose PC is already past its bytes (40_dispatch_addressing.md R61). -/
def exec (i : Instr) (s : State) : Host.Outcome State Fault Refusal :=
  match i with
  | .ldaImm v => Sys2Proof.Machine.execLdaImm v s
  | .ldaZp z => Sys2Proof.Machine.execLdaZp z s
  | .ldaZpX z => Sys2Proof.Machine.execLdaZpX z s
  | .ldaAbs w => Sys2Proof.Machine.execLdaAbs w s
  | .ldaAbsX w => Sys2Proof.Machine.execLdaAbsX w s
  | .ldaAbsY w => Sys2Proof.Machine.execLdaAbsY w s
  | .ldaIndX z => Sys2Proof.Machine.execLdaIndX z s
  | .ldaIndY z => Sys2Proof.Machine.execLdaIndY z s
  | .ldxImm v => Sys2Proof.Machine.execLdxImm v s
  | .ldxZp z => Sys2Proof.Machine.execLdxZp z s
  | .ldxZpY z => Sys2Proof.Machine.execLdxZpY z s
  | .ldxAbs w => Sys2Proof.Machine.execLdxAbs w s
  | .ldxAbsY w => Sys2Proof.Machine.execLdxAbsY w s
  | .ldyImm v => Sys2Proof.Machine.execLdyImm v s
  | .ldyZp z => Sys2Proof.Machine.execLdyZp z s
  | .ldyZpX z => Sys2Proof.Machine.execLdyZpX z s
  | .ldyAbs w => Sys2Proof.Machine.execLdyAbs w s
  | .ldyAbsX w => Sys2Proof.Machine.execLdyAbsX w s
  | .staZp z => Sys2Proof.Machine.execStaZp z s
  | .staZpX z => Sys2Proof.Machine.execStaZpX z s
  | .staAbs w => Sys2Proof.Machine.execStaAbs w s
  | .staAbsX w => Sys2Proof.Machine.execStaAbsX w s
  | .staAbsY w => Sys2Proof.Machine.execStaAbsY w s
  | .staIndX z => Sys2Proof.Machine.execStaIndX z s
  | .staIndY z => Sys2Proof.Machine.execStaIndY z s
  | .stxZp z => Sys2Proof.Machine.execStxZp z s
  | .stxZpY z => Sys2Proof.Machine.execStxZpY z s
  | .stxAbs w => Sys2Proof.Machine.execStxAbs w s
  | .styZp z => Sys2Proof.Machine.execStyZp z s
  | .styZpX z => Sys2Proof.Machine.execStyZpX z s
  | .styAbs w => Sys2Proof.Machine.execStyAbs w s
  | .tax => Sys2Proof.Machine.execTax s
  | .tay => Sys2Proof.Machine.execTay s
  | .txa => Sys2Proof.Machine.execTxa s
  | .tya => Sys2Proof.Machine.execTya s
  | .tsx => Sys2Proof.Machine.execTsx s
  | .txs => Sys2Proof.Machine.execTxs s
  | .pha => Sys2Proof.Machine.execPha s
  | .php => Sys2Proof.Machine.execPhp s
  | .pla => Sys2Proof.Machine.execPla s
  | .plp => Sys2Proof.Machine.execPlp s
  | .andImm v => Sys2Proof.Machine.execAndImm v s
  | .andZp z => Sys2Proof.Machine.execAndZp z s
  | .andZpX z => Sys2Proof.Machine.execAndZpX z s
  | .andAbs w => Sys2Proof.Machine.execAndAbs w s
  | .andAbsX w => Sys2Proof.Machine.execAndAbsX w s
  | .andAbsY w => Sys2Proof.Machine.execAndAbsY w s
  | .andIndX z => Sys2Proof.Machine.execAndIndX z s
  | .andIndY z => Sys2Proof.Machine.execAndIndY z s
  | .eorImm v => Sys2Proof.Machine.execEorImm v s
  | .eorZp z => Sys2Proof.Machine.execEorZp z s
  | .eorZpX z => Sys2Proof.Machine.execEorZpX z s
  | .eorAbs w => Sys2Proof.Machine.execEorAbs w s
  | .eorAbsX w => Sys2Proof.Machine.execEorAbsX w s
  | .eorAbsY w => Sys2Proof.Machine.execEorAbsY w s
  | .eorIndX z => Sys2Proof.Machine.execEorIndX z s
  | .eorIndY z => Sys2Proof.Machine.execEorIndY z s
  | .oraImm v => Sys2Proof.Machine.execOraImm v s
  | .oraZp z => Sys2Proof.Machine.execOraZp z s
  | .oraZpX z => Sys2Proof.Machine.execOraZpX z s
  | .oraAbs w => Sys2Proof.Machine.execOraAbs w s
  | .oraAbsX w => Sys2Proof.Machine.execOraAbsX w s
  | .oraAbsY w => Sys2Proof.Machine.execOraAbsY w s
  | .oraIndX z => Sys2Proof.Machine.execOraIndX z s
  | .oraIndY z => Sys2Proof.Machine.execOraIndY z s

end Sys2Proof.Machine
end

