-- ==== Sys2Proof/Machine/Fetch.lean ====
section
/-! DEFINITION. Fetching an instruction (40_dispatch_addressing.md R61 to R64): the opcode byte, the table dispatch, and
the operand bytes, each through the fetch primitives. -/

namespace Sys2Proof.Machine

/-- What a fetch gives: an instruction, with PC past it, or a byte with no entry, with PC past that byte (R64). -/
inductive Fetched where
  | instr (i : Instr) (s : State)
  | unknown (op : Byte) (s : State)

/-- The fetch and dispatch phases of `step()` (R61). All operand bytes are fetched before the operation (R123). -/
def fetchInstr (s : State) : Fetched :=
  let (op, s) := fetchByte s
  let s := s.setOpcode op
  match lookupOpcode s.config.opcodeOverrides op with
  | none => .unknown op s
  | some (.implied i) => .instr i s
  | some (.byte mk) =>
    let (b, s) := fetchByte s
    .instr (mk b) s
  | some (.word mk) =>
    let (w, s) := fetchWord s
    .instr (mk w) s

/-- The first `n` bytes from an address on, wrapping at 65536 (R50). -/
def bytesAt (s : State) (addr : Word) : Nat → List Byte
  | 0 => []
  | n + 1 => readByte s addr :: bytesAt s (addr + 1) n

/-- Place bytes in memory from an address on, as the host does between steps (R114). -/
def placeBytes (s : State) (addr : Word) : List Byte → State
  | [] => s
  | b :: bs => placeBytes (writeByte s addr b) (addr + 1) bs

end Sys2Proof.Machine
end

