-- ==== Sys2Proof/Machine/Step.lean ====
section
/-! DEFINITION. step(): fetch, dispatch and execute one instruction (40_dispatch_addressing.md R61). -/

namespace Sys2Proof.Machine

/-- One call of `step()` (R61): a next state with the cycle count in `result`, or the Unknown-Opcode fault (R105). -/
def step (s : State) : Host.Outcome State Fault Refusal :=
  match fetchInstr s with
  | .instr i s' => exec i s'
  | .unknown op s' => raiseUnknownOpcode s' op

/-- `s` with the instruction of an opcode-table row placed at PC, where the next step fetches (assumption 11). -/
def State.withFetchWord (s : State) (nbits w : Nat) : State := placeBytes s s.pc (tableBytes nbits w)

end Sys2Proof.Machine
end

