-- ==== Sys2Proof/Machine/HostPort.lean ====
section
/-! DEFINITION. What the host can do to the core between steps (60_exceptions.md R114; 10_state.md R27). -/

namespace Sys2Proof.Machine

/-- The registers of R27 that hold a byte. -/
inductive ByteRegister where
  | a | x | y | sp
  deriving DecidableEq, Repr

/-- The seven flags (R18). -/
inductive Flag where
  | carry | zero | interruptDisable | decimalMode | break_ | overflow | negative
  deriving DecidableEq, Repr

/-- Accessor read of a byte register (R27). -/
def State.getRegister (s : State) : ByteRegister → Byte
  | .a => s.a
  | .x => s.x
  | .y => s.y
  | .sp => s.sp

/-- Accessor write of a byte register: exactly that register, any value, no flag (R27). -/
def State.setRegister (s : State) (r : ByteRegister) (v : Byte) : State :=
  match r with
  | .a => s.setA v
  | .x => s.setX v
  | .y => s.setY v
  | .sp => s.setSp v

/-- Accessor read of a flag (R27). -/
def State.getFlag (s : State) : Flag → Bool
  | .carry => s.c
  | .zero => s.z
  | .interruptDisable => s.i
  | .decimalMode => s.d
  | .break_ => s.b
  | .overflow => s.v
  | .negative => s.n

/-- Accessor write of a flag: exactly that flag (R27). -/
def State.setFlag (s : State) (f : Flag) (v : Bool) : State :=
  match f with
  | .carry => { s with c := v }
  | .zero => { s with z := v }
  | .interruptDisable => { s with i := v }
  | .decimalMode => { s with d := v }
  | .break_ => { s with b := v }
  | .overflow => { s with v := v }
  | .negative => { s with n := v }

/-- The host's moves that change the core (R114); its reads are `getRegister`, `getFlag`, the field `pc`, `getStatus`,
`readByte` and `readWord`. -/
inductive HostAction where
  | reset
  | writeRegister (r : ByteRegister) (v : Byte)
  | writePc (target : Word)
  | writeFlag (f : Flag) (v : Bool)
  | setStatus (b : Byte)
  | writeByte (addr : Word) (v : Byte)
  | writeWord (addr : Word) (w : Word)
  deriving DecidableEq, Repr

/-- The effect of a host's move, between steps (R44, R114). -/
def hostAct (act : HostAction) (s : State) : State :=
  match act with
  | .reset => resetCpu s
  | .writeRegister r v => s.setRegister r v
  | .writePc target => s.setPc target
  | .writeFlag f v => s.setFlag f v
  | .setStatus b => s.setStatus b
  | .writeByte addr v => writeByte s addr v
  | .writeWord addr w => writeWord s addr w

end Sys2Proof.Machine
end

