-- ==== Sys2Proof/Safety.lean ====
section
/-! DEFINITION. The terms of the claims: the invariant of a state, and the states a run can reach when the host may act
between steps. -/

namespace Sys2Proof.Safety

open Sys2Proof.Machine

/-- The invariant of a state: its memory is in canonical form. Registers and flags may hold any value (R27). -/
abbrev Inv (s : State) : Prop := Memory.wf s.mem

/-- The state an outcome leaves: the next one, or the one a fault carries (R105, R110). -/
def stateAfter : Host.Outcome State Fault Refusal → Option State
  | .next s => some s
  | .fault (.unknownOpcode _ s) => some s
  | .refused _ => none

/-- The states reached from `s` by steps and host actions in any order (R44, R114), going on after an Unknown-Opcode if
the host does (R110). -/
inductive Reaches (s : State) : State → Prop where
  | start : Reaches s s
  | step (t u : State) (before : Reaches s t) (goes : stateAfter (Machine.step t) = some u) : Reaches s u
  | host (act : HostAction) (t : State) (before : Reaches s t) : Reaches s (hostAct act t)

end Sys2Proof.Safety
end

