-- ==== Sys2Proof/WellFormed.lean ====
section
/-! DEFINITION. Which pairs of operation and mode exist (30_encoding.md R55; 40_dispatch_addressing.md R65), and the
check on an instruction that follows from it. Operand fields have their exact width in the type, so the pairing is the
only thing to check (assumption 16). -/

namespace Sys2Proof

/-- The modes of an operation, from the encoding lines of R84 to R104. -/
def Operation.modes : Operation → List Mode
  | .lda | .and | .eor | .ora =>
    [.immediate, .zeroPage, .zeroPageX, .absolute, .absoluteX, .absoluteY, .indirectX, .indirectY]
  | .ldx =>
    [.immediate, .zeroPage, .zeroPageY, .absolute, .absoluteY]
  | .ldy =>
    [.immediate, .zeroPage, .zeroPageX, .absolute, .absoluteX]
  | .sta =>
    [.zeroPage, .zeroPageX, .absolute, .absoluteX, .absoluteY, .indirectX, .indirectY]
  | .stx =>
    [.zeroPage, .zeroPageY, .absolute]
  | .sty =>
    [.zeroPage, .zeroPageX, .absolute]
  | .tax | .tay | .txa | .tya | .tsx | .txs | .pha | .php | .pla | .plp =>
    [.implied]

/-- The opcode table pairs this operation with this mode (R65: no store has an Immediate form, an implied operation has
no mode but Implied). -/
def pairing (op : Operation) (m : Mode) : Bool := op.modes.contains m

/-- A well-formed instruction: its operation has its mode. -/
def Instr.wf (i : Instr) : Bool := pairing i.operation i.mode

end Sys2Proof
end

