-- ==== Sys2Proof/Certificates/Slice0/Obligations.lean ====
section
/-! DEFINITION. The statements about the machine, each from a numbered rule of the spec or from the rules it names. -/

namespace Sys2Proof.Claims

open Sys2Proof.Machine

/-- The rows of R55: opcode byte, operation, mode. -/
def specTable : List (Byte × Operation × Mode) :=
  [(0x01, .ora, .indirectX), (0x05, .ora, .zeroPage), (0x08, .php, .implied), (0x09, .ora, .immediate),
   (0x0D, .ora, .absolute), (0x11, .ora, .indirectY), (0x15, .ora, .zeroPageX), (0x19, .ora, .absoluteY),
   (0x1D, .ora, .absoluteX), (0x21, .and, .indirectX), (0x25, .and, .zeroPage), (0x28, .plp, .implied),
   (0x29, .and, .immediate), (0x2D, .and, .absolute), (0x31, .and, .indirectY), (0x35, .and, .zeroPageX),
   (0x39, .and, .absoluteY), (0x3D, .and, .absoluteX), (0x41, .eor, .indirectX), (0x45, .eor, .zeroPage),
   (0x48, .pha, .implied), (0x49, .eor, .immediate), (0x4D, .eor, .absolute), (0x51, .eor, .indirectY),
   (0x55, .eor, .zeroPageX), (0x59, .eor, .absoluteY), (0x5D, .eor, .absoluteX), (0x68, .pla, .implied),
   (0x81, .sta, .indirectX), (0x84, .sty, .zeroPage), (0x85, .sta, .zeroPage), (0x86, .stx, .zeroPage),
   (0x8A, .txa, .implied), (0x8C, .sty, .absolute), (0x8D, .sta, .absolute), (0x8E, .stx, .absolute),
   (0x91, .sta, .indirectY), (0x94, .sty, .zeroPageX), (0x95, .sta, .zeroPageX), (0x96, .stx, .zeroPageY),
   (0x98, .tya, .implied), (0x99, .sta, .absoluteY), (0x9A, .txs, .implied), (0x9D, .sta, .absoluteX),
   (0xA0, .ldy, .immediate), (0xA1, .lda, .indirectX), (0xA2, .ldx, .immediate), (0xA4, .ldy, .zeroPage),
   (0xA5, .lda, .zeroPage), (0xA6, .ldx, .zeroPage), (0xA8, .tay, .implied), (0xA9, .lda, .immediate),
   (0xAA, .tax, .implied), (0xAC, .ldy, .absolute), (0xAD, .lda, .absolute), (0xAE, .ldx, .absolute),
   (0xB1, .lda, .indirectY), (0xB4, .ldy, .zeroPageX), (0xB5, .lda, .zeroPageX), (0xB6, .ldx, .zeroPageY),
   (0xB9, .lda, .absoluteY), (0xBA, .tsx, .implied), (0xBC, .ldy, .absoluteX), (0xBD, .lda, .absoluteX),
   (0xBE, .ldx, .absoluteY)]

/-- The default base cycles of R126: opcode byte, cycles. -/
def specCycles : List (Byte × Nat) :=
  [(0x01, 6), (0x05, 3), (0x08, 3), (0x09, 2), (0x0D, 4), (0x11, 5), (0x15, 4), (0x19, 4), (0x1D, 4),
   (0x21, 6), (0x25, 3), (0x28, 4), (0x29, 2), (0x2D, 4), (0x31, 5), (0x35, 4), (0x39, 4), (0x3D, 4),
   (0x41, 6), (0x45, 3), (0x48, 3), (0x49, 2), (0x4D, 4), (0x51, 5), (0x55, 4), (0x59, 4), (0x5D, 4),
   (0x68, 4), (0x81, 6), (0x84, 3), (0x85, 3), (0x86, 3), (0x8A, 2), (0x8C, 4), (0x8D, 4), (0x8E, 4),
   (0x91, 6), (0x94, 4), (0x95, 4), (0x96, 4), (0x98, 2), (0x99, 5), (0x9A, 2), (0x9D, 5), (0xA0, 2),
   (0xA1, 6), (0xA2, 2), (0xA4, 3), (0xA5, 3), (0xA6, 3), (0xA8, 2), (0xA9, 2), (0xAA, 2), (0xAC, 4),
   (0xAD, 4), (0xAE, 4), (0xB1, 5), (0xB4, 4), (0xB5, 4), (0xB6, 4), (0xB9, 4), (0xBA, 2), (0xBC, 4),
   (0xBD, 4), (0xBE, 4)]

/-- The 191 undefined bytes, as R57 lists them. -/
def undefinedOpcodes : List Byte :=
  [0x00, 0x02, 0x03, 0x04, 0x06, 0x07, 0x0A, 0x0B, 0x0C, 0x0E, 0x0F, 0x10, 0x12, 0x13, 0x14, 0x16, 0x17, 0x18,
   0x1A, 0x1B, 0x1C, 0x1E, 0x1F, 0x20, 0x22, 0x23, 0x24, 0x26, 0x27, 0x2A, 0x2B, 0x2C, 0x2E, 0x2F, 0x30, 0x32,
   0x33, 0x34, 0x36, 0x37, 0x38, 0x3A, 0x3B, 0x3C, 0x3E, 0x3F, 0x40, 0x42, 0x43, 0x44, 0x46, 0x47, 0x4A, 0x4B,
   0x4C, 0x4E, 0x4F, 0x50, 0x52, 0x53, 0x54, 0x56, 0x57, 0x58, 0x5A, 0x5B, 0x5C, 0x5E, 0x5F, 0x60, 0x61, 0x62,
   0x63, 0x64, 0x65, 0x66, 0x67, 0x69, 0x6A, 0x6B, 0x6C, 0x6D, 0x6E, 0x6F, 0x70, 0x71, 0x72, 0x73, 0x74, 0x75,
   0x76, 0x77, 0x78, 0x79, 0x7A, 0x7B, 0x7C, 0x7D, 0x7E, 0x7F, 0x80, 0x82, 0x83, 0x87, 0x88, 0x89, 0x8B, 0x8F,
   0x90, 0x92, 0x93, 0x97, 0x9B, 0x9C, 0x9E, 0x9F, 0xA3, 0xA7, 0xAB, 0xAF, 0xB0, 0xB2, 0xB3, 0xB7, 0xB8, 0xBB,
   0xBF, 0xC0, 0xC1, 0xC2, 0xC3, 0xC4, 0xC5, 0xC6, 0xC7, 0xC8, 0xC9, 0xCA, 0xCB, 0xCC, 0xCD, 0xCE, 0xCF, 0xD0,
   0xD1, 0xD2, 0xD3, 0xD4, 0xD5, 0xD6, 0xD7, 0xD8, 0xD9, 0xDA, 0xDB, 0xDC, 0xDD, 0xDE, 0xDF, 0xE0, 0xE1, 0xE2,
   0xE3, 0xE4, 0xE5, 0xE6, 0xE7, 0xE8, 0xE9, 0xEA, 0xEB, 0xEC, 0xED, 0xEE, 0xEF, 0xF0, 0xF1, 0xF2, 0xF3, 0xF4,
   0xF5, 0xF6, 0xF7, 0xF8, 0xF9, 0xFA, 0xFB, 0xFC, 0xFD, 0xFE, 0xFF]

/-- `OPCODE_TABLE` under a setting of the parameters (R7, R55): the entry a departure gives the byte, else its row of
R55. A pair that no rule of R84 to R104 has counts as no entry (assumption 7). -/
def tableEntry (cfg : Config) (op : Byte) : Option (Operation × Mode) :=
  match cfg.opcodeOverrides.lookup op with
  | some entry => entry.filter (fun p => pairing p.1 p.2)
  | none => specTable.lookup op

/-- The entry of the opcode byte at PC. -/
def entryAtPc (s : State) : Option (Operation × Mode) := tableEntry s.config (readByte s s.pc)

/-- The operand that a mode makes of the bytes after the opcode (R51, R52): `imm8`, `zp8`, or `abs16` low byte first. -/
def operandOf (m : Mode) (b1 b2 : Byte) : Option Operand :=
  match m with
  | .implied => none
  | .immediate => some (.immediate b1)
  | .zeroPage => some (.memory (.zeroPage b1))
  | .zeroPageX => some (.memory (.zeroPageX b1))
  | .zeroPageY => some (.memory (.zeroPageY b1))
  | .absolute => some (.memory (.absolute (joinWord b2 b1)))
  | .absoluteX => some (.memory (.absoluteX (joinWord b2 b1)))
  | .absoluteY => some (.memory (.absoluteY (joinWord b2 b1)))
  | .indirectX => some (.memory (.indirectX b1))
  | .indirectY => some (.memory (.indirectY b1))

/-- An operation has exactly these opcode bytes and modes (the encoding line of its rule). -/
def HasForms (op : Operation) (forms : List (Byte × Mode)) : Prop :=
  (∀ i : Instr, i.operation = op → (i.opcode, i.mode) ∈ forms) ∧
    ∀ f ∈ forms, ∃ i : Instr, i.operation = op ∧ (i.opcode, i.mode) = f

/-- The write operations of R65. -/
def isStore (i : Instr) : Bool := i.operation == .sta || i.operation == .stx || i.operation == .sty

/-- Where an instruction stores and what, if it stores: its effective address (R79) or its stack address (R96). -/
def stored (i : Instr) (s : State) : Option (Word × Byte) :=
  match i.operation, i.operand with
  | .sta, some (.memory m) => some ((resolve m s).ea, s.a)
  | .stx, some (.memory m) => some ((resolve m s).ea, s.x)
  | .sty, some (.memory m) => some ((resolve m s).ea, s.y)
  | .pha, _ => some (0x0100 + zext16 s.sp, s.a)
  | .php, _ => some (0x0100 + zext16 s.sp, getStatus s)
  | _, _ => none

/-- The state after a load of A by a whole step: PC past `len` bytes, Z and N from the byte, and the cycle count. -/
def loadedA (s : State) (len : Word) (v : Byte) (crossed : Bool) : State :=
  { s with a := v, z := v == 0x00, n := v[7], pc := s.pc + len
           result := some (.ok (baseCycles s.config (readByte s s.pc) + if crossed then 1 else 0))
           opcode := readByte s s.pc }

/-- The crossing cycle of R81: 1 for Absolute,X, Absolute,Y or Indirect,Y with a crossing, unless it is a store and
`PENALTY_ON_STORES` is false. -/
def crossingCycle (i : Instr) (s : State) : Nat :=
  match i.operand with
  | some (.memory m) =>
    if (m.mode = .absoluteX ∨ m.mode = .absoluteY ∨ m.mode = .indirectY) ∧ (resolve m s).crossed = true ∧
      (isStore i = false ∨ s.config.penaltyOnStores = true) then 1 else 0
  | some (.immediate _) | none => 0

/-- The two states differ at most in the seven flags. -/
def SameButFlags (s t : State) : Prop :=
  s.a = t.a ∧ s.x = t.x ∧ s.y = t.y ∧ s.sp = t.sp ∧ s.pc = t.pc ∧ s.mem = t.mem ∧ s.result = t.result ∧
    s.opcode = t.opcode ∧ s.config = t.config

/-- The two states have the same C, I, D, B and V. -/
def SameCidbv (s t : State) : Prop := s.c = t.c ∧ s.i = t.i ∧ s.d = t.d ∧ s.b = t.b ∧ s.v = t.v

/-- The two states have the same Z and N. -/
def SameZn (s t : State) : Prop := s.z = t.z ∧ s.n = t.n

end Sys2Proof.Claims

open Sys2Proof Sys2Proof.Machine Sys2Proof.Safety Sys2Proof.Claims

/-- Words written out from the spec decode to their instructions (R55, R59, R84, R87, R88, R89, R95, R98, R101, R102,
R104). For words of every family written out from R84 to R104, decode gives the instruction they stand for: LDA #$42,
LDA $5678,X, STA $10, STX $02,Y, STY $1234, TXS, PHA, PLP, AND #$3C, ORA ($10),Y; and the byte 0x00 is refused as an
unknown opcode. -/
def Obligations.DecodeSpecWords : Prop :=
  decode [0xA9, 0x42] = .ok (.ldaImm 0x42, []) ∧
  decode [0xBD, 0x78, 0x56] = .ok (.ldaAbsX 0x5678, []) ∧
  decode [0x85, 0x10] = .ok (.staZp 0x10, []) ∧
  decode [0x96, 0x02] = .ok (.stxZpY 0x02, []) ∧
  decode [0x8C, 0x34, 0x12] = .ok (.styAbs 0x1234, []) ∧
  decode [0x9A] = .ok (.txs, []) ∧
  decode [0x48] = .ok (.pha, []) ∧
  decode [0x28] = .ok (.plp, []) ∧
  decode [0x29, 0x3C] = .ok (.andImm 0x3C, []) ∧
  decode [0x11, 0x10] = .ok (.oraIndY 0x10, []) ∧
  decode [0x00] = .error (.unknownOpcode 0x00)

/-- Decoding the encoding of an instruction gives the instruction back (R7, R50, R51, R52, R53, R55). For every
instruction i, at every value of its operand, and whatever bytes follow, decode reads i from encode i and leaves
exactly the bytes that follow. The same holds under every setting of OPCODE_TABLE, for every byte that has the entry
of i's operation and mode, followed by i's operand bytes. -/
def Obligations.DecodeEncodeAgree : Prop :=
  (∀ (i : Instr) (rest : List Byte), decode (encode i ++ rest) = .ok (i, rest)) ∧
  ∀ (cfg : Config) (op : Byte) (i : Instr) (rest : List Byte), tableEntry cfg op = some (i.operation, i.mode) →
    decodeWith cfg.opcodeOverrides (op :: (i.operandBytes ++ rest)) = .ok (i, rest)

/-- The bytes an instruction was decoded from are its encoding (R7, R50, R51, R52, R53, R55). Whenever decode reads an
instruction i from bytes and leaves rest, the bytes are encode i followed by rest, so every word has one meaning and
no bit of it is dropped. Under every setting of OPCODE_TABLE they are a byte that has the entry of i's operation and
mode, i's operand bytes, and rest. -/
def Obligations.EncodeDecodeAgree : Prop :=
  (∀ (bs : List Byte) (i : Instr) (rest : List Byte), decode bs = .ok (i, rest) → bs = encode i ++ rest) ∧
  ∀ (cfg : Config) (bs : List Byte) (i : Instr) (rest : List Byte),
    decodeWith cfg.opcodeOverrides bs = .ok (i, rest) →
      ∃ op : Byte, tableEntry cfg op = some (i.operation, i.mode) ∧ bs = op :: (i.operandBytes ++ rest)

/-- The decoder implements the opcode table: the 65 rows by default, and every other setting of OPCODE_TABLE (R7, R51,
R52, R55, R56). The spec's table has 65 rows. For each row (opcode, operation, mode) and any following bytes, decode
gives an instruction of that operation and mode whose operand is made of the bytes as R52 says (abs16 low byte first),
and consumes the number of operand bytes R51 gives the mode. Whatever decodes has an opcode, operation and mode of the
table. Under every setting of OPCODE_TABLE a byte with an entry decodes to that operation and mode with that operand,
and a byte without one to nothing; every partial map from bytes to the pairs of operation and mode of R84 to R104 is a
setting, and the default departs from R55 nowhere. That a setting is a list of departures, and that other pairs count
as no entry, are the model's (assumption 7). -/
def Obligations.OpcodeTableIsSpecTable : Prop :=
  specTable.length = 65 ∧
  (Mode.implied.operandBytes = 0 ∧ Mode.immediate.operandBytes = 1 ∧ Mode.zeroPage.operandBytes = 1 ∧
    Mode.zeroPageX.operandBytes = 1 ∧ Mode.zeroPageY.operandBytes = 1 ∧ Mode.absolute.operandBytes = 2 ∧
    Mode.absoluteX.operandBytes = 2 ∧ Mode.absoluteY.operandBytes = 2 ∧ Mode.indirectX.operandBytes = 1 ∧
    Mode.indirectY.operandBytes = 1) ∧
  (∀ (op : Byte) (operation : Operation) (m : Mode) (b1 b2 : Byte) (rest : List Byte),
    (op, operation, m) ∈ specTable →
      ∃ i : Instr, decode (op :: b1 :: b2 :: rest) = .ok (i, (b1 :: b2 :: rest).drop m.operandBytes) ∧
        i.opcode = op ∧ i.operation = operation ∧ i.mode = m ∧ i.operand = operandOf m b1 b2) ∧
  (∀ (bs rest : List Byte) (i : Instr), decode bs = .ok (i, rest) → (i.opcode, i.operation, i.mode) ∈ specTable) ∧
  defaultConfig.opcodeOverrides = [] ∧
  (∀ (cfg : Config) (op b1 b2 : Byte) (rest : List Byte),
    match tableEntry cfg op with
    | some (operation, m) =>
      ∃ i : Instr, decodeWith cfg.opcodeOverrides (op :: b1 :: b2 :: rest) =
          .ok (i, (b1 :: b2 :: rest).drop m.operandBytes) ∧
        i.operation = operation ∧ i.mode = m ∧ i.operand = operandOf m b1 b2
    | none => decodeWith cfg.opcodeOverrides (op :: b1 :: b2 :: rest) = .error (.unknownOpcode op)) ∧
  ∀ table : Byte → Option (Operation × Mode),
    (∀ (op : Byte) (p : Operation × Mode), table op = some p → pairing p.1 p.2 = true) →
      ∃ setting : OpcodeOverrides, ∀ (cfg : Config) (op : Byte),
        tableEntry { cfg with opcodeOverrides := setting } op = table op

/-- The 191 bytes with no entry decode to nothing and fail the step, and the other 65 decode (R57). There are 191
undefined bytes, the list of R57. At the default OPCODE_TABLE they are exactly the bytes with no entry: decode answers
unknownOpcode with one of them whatever follows, and every other byte, with two bytes after it, decodes. A step that
fetches one of them as its opcode at the default table, or a byte with no entry at any other, fails with that byte.
That a setting which lists a pair no rule of R84 to R104 gives, such as STA Immediate, counts as giving no entry is
the model's choice (assumption 7). -/
def Obligations.UndefinedOpcodesAreRefused : Prop :=
  undefinedOpcodes.length = 191 ∧
  (∀ (op : Byte) (rest : List Byte), op ∈ undefinedOpcodes → decode (op :: rest) = .error (.unknownOpcode op)) ∧
  (∀ s : State, s.config.opcodeOverrides = [] → readByte s s.pc ∈ undefinedOpcodes →
    ∃ t : State, step s = .fault (.unknownOpcode (readByte s s.pc) t)) ∧
  (∀ s : State, entryAtPc s = none → ∃ t : State, step s = .fault (.unknownOpcode (readByte s s.pc) t)) ∧
  ∀ (op b1 b2 : Byte), op ∉ undefinedOpcodes → ∃ (i : Instr) (rest : List Byte), decode [op, b1, b2] = .ok (i, rest)

/-- A step runs the instruction decoded at PC, with PC past its bytes (R17, R50, R61, R62, R63, R64). When the bytes
at PC (wrapping at 65536) decode, under the state's OPCODE_TABLE, to an instruction i, it is well-formed and step
answers what exec i answers in the same state with PC moved past i's bytes, the opcode byte recorded in the model's
own field (assumption 19), and nothing else changed. -/
def Obligations.StepRunsDecodedInstruction : Prop :=
  ∀ (s : State) (i : Instr) (rest : List Byte),
    decodeWith s.config.opcodeOverrides (bytesAt s s.pc 3) = .ok (i, rest) →
      i.wf = true ∧
        step s = exec i ((s.setPc (s.pc + BitVec.ofNat 16 i.length)).setOpcode (readByte s s.pc))

/-- fetchByte and fetchWord read at PC and advance PC by one and two, modulo 65536 (R62, R63, R17). fetchByte gives
the byte at PC and a state that differs in PC + 1 alone; fetchWord gives the little-endian word at PC, the high byte
from the address after it, and PC + 2. At PC = 0xFFFF fetchByte leaves 0x0000 and fetchWord reads 0xFFFF and 0x0000
and leaves 0x0001; at 0xFFFE fetchWord leaves 0x0000. No instruction's operation moves PC, so these are the only
operations that advance it in a step. That PC + 2 wraps at 65536 is the spec's decision D14. -/
def Obligations.FetchPrimitives : Prop :=
  (∀ s : State, fetchByte s = (readByte s s.pc, { s with pc := s.pc + 1 })) ∧
  (∀ s : State, fetchWord s = (joinWord (readByte s (s.pc + 1)) (readByte s s.pc), { s with pc := s.pc + 2 })) ∧
  (∀ s : State, s.pc = 0xFFFF → fetchByte s = (readByte s 0xFFFF, { s with pc := 0x0000 }) ∧
    fetchWord s = (joinWord (readByte s 0x0000) (readByte s 0xFFFF), { s with pc := 0x0001 })) ∧
  (∀ s : State, s.pc = 0xFFFE →
    fetchWord s = (joinWord (readByte s 0xFFFF) (readByte s 0xFFFE), { s with pc := 0x0000 })) ∧
  ∀ (i : Instr) (s t : State), exec i s = .next t → t.pc = s.pc

/-- Unknown-Opcode: PC past the byte, nothing else changed, raised by exactly the bytes with no entry (R57, R105,
R109, R111). When the byte at PC has no entry in the state's OPCODE_TABLE, step faults with that byte and leaves the
state before with PC + 1 and the returned value UnknownOpcode(byte): no register, flag or memory byte changes and no
cycle count is given. A step faults only there. That a failed step is a fault outcome whose fault carries the state,
and that the returned value and the fetched byte stand in fields, are the model's (assumptions 8, 9 and 19); so is
that a setting which lists a pair no rule of R84 to R104 gives, such as STA Immediate, counts as giving no entry
(assumption 7). -/
def Obligations.UnknownOpcodeFailure : Prop :=
  (∀ s : State, entryAtPc s = none →
    step s = .fault (.unknownOpcode (readByte s s.pc)
      { s with
        pc := s.pc + 1, result := some (.unknownOpcode (readByte s s.pc)), opcode := readByte s s.pc })) ∧
  ∀ (s : State) (f : Fault), step s = .fault f → entryAtPc s = none

/-- After an Unknown-Opcode the next step starts at the byte after the undefined one (R105, R110). If a step fails and
leaves the state u, then a step made from u is the step made from the state before with PC moved on by one byte. -/
def Obligations.NextStepAfterUnknownOpcode : Prop :=
  ∀ (s u : State) (op : Byte), step s = .fault (.unknownOpcode op u) →
    u.pc = s.pc + 1 ∧ step u = step { s with pc := s.pc + 1 }

/-- Every instruction of the table completes with Ok(cycles) from every state (R106). For every instruction i and
every state s, exec i s answers a next state whose returned value is Ok of some cycle count. A step is never refused;
it answers a next state with Ok of a count when the byte at PC has an entry in OPCODE_TABLE, whatever its setting, and
otherwise fails with UnknownOpcode of that byte, so that nothing else is raised and no failing byte is skipped. That a
setting which lists a pair no rule of R84 to R104 gives, such as STA Immediate, counts as giving no entry is the
model's choice (assumption 7). -/
def Obligations.EveryInstructionCompletes : Prop :=
  (∀ (i : Instr) (s : State), ∃ (t : State) (n : Nat), exec i s = .next t ∧ t.result = some (.ok n)) ∧
  (∀ (s : State) (r : Refusal), step s ≠ .refused r) ∧
  (∀ s : State, entryAtPc s ≠ none →
    ∃ (t : State) (n : Nat), step s = .next t ∧ t.result = some (.ok n)) ∧
  ∀ s : State, entryAtPc s = none → ∃ u : State, step s = .fault (.unknownOpcode (readByte s s.pc) u)

/-- PC moves by the instruction length only; no instruction transfers control (R82). exec changes no PC. A successful
step leaves PC = p + length of the instruction decoded at p, modulo 65536, and a failed one p + 1. Of the host's
actions only reset and the PC accessor change PC. -/
def Obligations.PcAdvancesByLength : Prop :=
  (∀ (i : Instr) (s t : State), exec i s = .next t → t.pc = s.pc) ∧
  (∀ s t : State, step s = .next t →
    ∃ (i : Instr) (rest : List Byte), decodeWith s.config.opcodeOverrides (bytesAt s s.pc 3) = .ok (i, rest) ∧
      t.pc = s.pc + BitVec.ofNat 16 (1 + i.mode.operandBytes)) ∧
  (∀ (s u : State) (op : Byte), step s = .fault (.unknownOpcode op u) → u.pc = s.pc + 1) ∧
  ∀ (act : HostAction) (s : State), (hostAct act s).pc ≠ s.pc → act = .reset ∨ ∃ w : Word, act = .writePc w

/-- The cycle count is the base cost of the opcode plus at most one crossing cycle (R80, R81). Every instruction that
completes returns Ok of BASE_CYCLES at the fetched opcode byte plus 1 if its mode is Absolute,X, Absolute,Y or
Indirect,Y, its access crossed a page, and it is not a store or PENALTY_ON_STORES holds; plus 0 otherwise; a step that
completes returns that of the instruction at PC and the byte at PC. A step that fails returns no count. That the
returned value and the fetched byte stand in State.result and State.opcode is the model's (assumptions 8 and 19). -/
def Obligations.CycleCost : Prop :=
  (∀ (s u : State) (op : Byte), step s = .fault (.unknownOpcode op u) → ∀ n : Nat, u.result ≠ some (.ok n)) ∧
  (∀ (i : Instr) (s t : State), exec i s = .next t →
    t.result = some (.ok (baseCycles s.config s.opcode + crossingCycle i s))) ∧
  ∀ s t : State, step s = .next t →
    ∃ (i : Instr) (rest : List Byte), decodeWith s.config.opcodeOverrides (bytesAt s s.pc 3) = .ok (i, rest) ∧
      t.result = some (.ok (baseCycles s.config (readByte s s.pc) + crossingCycle i s))

/-- At the default base table a completed instruction costs 2 to 7 cycles (R80, R81, R126). In every state whose
parameters do not depart from the default OPCODE_TABLE and BASE_CYCLES, and under either setting of the others, the
count a step returns is between 2 and 7. The default table is the spec's decision D4 (assumption 6). -/
def Obligations.CycleCountsWithinTwoToSeven : Prop :=
  ∀ (s t : State) (n : Nat), s.config.baseCycleOverrides = [] → s.config.opcodeOverrides = [] →
    step s = .next t → t.result = some (.ok n) → 2 ≤ n ∧ n ≤ 7

/-- The default base cycles are the 65 values of the table, and a departure replaces exactly its opcode (R7, R126).
For every opcode of the table the default base cost is the value R126 gives, and with an override for one opcode that
opcode has the override's cost and every other the cost it had. The default table is the spec's decision D4, and that
a setting of BASE_CYCLES is a list of departures in which the first entry of an opcode counts is the model's choice
(assumption 6). -/
def Obligations.DefaultCycleTable : Prop :=
  specCycles.length = 65 ∧
  (∀ op n, (op, n) ∈ specCycles → baseCycles defaultConfig op = n) ∧
  ∀ (cfg : Config) (op other : Byte) (n : Nat),
    baseCycles { cfg with baseCycleOverrides := (op, n) :: cfg.baseCycleOverrides } other =
      if other = op then n else baseCycles cfg other

/-- The cycle counts the source states (R127). At the default parameters a step of LDA Immediate returns 2, LDA Zero-
page 3, LDA Absolute,X 4 without and 5 with a crossing, PHA 3 and AND Immediate 2; reset returns no count, and an
Unknown-Opcode step returns none. -/
def Obligations.SourceCycleCounts : Prop :=
  (∀ s t : State, s.config = defaultConfig → step s = .next t →
    (readByte s s.pc = 0xA9 → t.result = some (.ok 2)) ∧
    (readByte s s.pc = 0xA5 → t.result = some (.ok 3)) ∧
    (readByte s s.pc = 0xBD →
      let base := joinWord (readByte s (s.pc + 2)) (readByte s (s.pc + 1))
      t.result = some (.ok (if hiByte (base + zext16 s.x) = hiByte base then 4 else 5))) ∧
    (readByte s s.pc = 0x48 → t.result = some (.ok 3)) ∧
    (readByte s s.pc = 0x29 → t.result = some (.ok 2))) ∧
  (∀ s : State, (resetCpu s).result = none) ∧
  ∀ (s u : State) (op : Byte), step s = .fault (.unknownOpcode op u) → ∀ n : Nat, u.result ≠ some (.ok n)

/-- Every addressing mode, from the instruction bytes at PC to the loaded register (R67, R68, R69, R70, R71, R72, R73,
R74, R75). For a step from any state, at any byte to which the state's OPCODE_TABLE gives the entry, with b and w the
operand byte and word after the opcode byte: LDA loads b (Immediate), M[b] (Zero-page), M[b +8 X], M[w], M[w +16 X],
M[w +16 Y], M[pointer at b +8 X] and M[pointer at b, +16 Y], and LDX Zero-page,Y loads M[b +8 Y]; PC is 2 or 3
further; the count has one more cycle exactly where Absolute,X, Absolute,Y or Indirect,Y crosses a page; nothing else
but Z and N changes. Only LDX and STX have the mode Zero-page,Y. TAX (Implied) reads no operand. -/
def Obligations.AddressingModesFromBytes : Prop :=
  (∀ i : Instr, i.mode = .zeroPageY → i.operation = .ldx ∨ i.operation = .stx) ∧
  ∀ s : State,
    let op := readByte s s.pc
    let b := readByte s (s.pc + 1)
    let w := joinWord (readByte s (s.pc + 2)) b
    (entryAtPc s = some (.lda, .immediate) → step s = .next (loadedA s 2 b false)) ∧
    (entryAtPc s = some (.lda, .zeroPage) → step s = .next (loadedA s 2 (readByte s (zext16 b)) false)) ∧
    (entryAtPc s = some (.lda, .zeroPageX) → step s = .next (loadedA s 2 (readByte s (zext16 (b + s.x))) false)) ∧
    (entryAtPc s = some (.lda, .absolute) → step s = .next (loadedA s 3 (readByte s w) false)) ∧
    (entryAtPc s = some (.lda, .absoluteX) → step s =
      .next (loadedA s 3 (readByte s (w + zext16 s.x)) (hiByte (w + zext16 s.x) != hiByte w))) ∧
    (entryAtPc s = some (.lda, .absoluteY) → step s =
      .next (loadedA s 3 (readByte s (w + zext16 s.y)) (hiByte (w + zext16 s.y) != hiByte w))) ∧
    (entryAtPc s = some (.lda, .indirectX) → step s = .next (loadedA s 2 (readByte s (zpReadWord s (b + s.x))) false)) ∧
    (entryAtPc s = some (.lda, .indirectY) → step s =
      .next (loadedA s 2 (readByte s (zpReadWord s b + zext16 s.y))
        (hiByte (zpReadWord s b + zext16 s.y) != hiByte (zpReadWord s b)))) ∧
    (entryAtPc s = some (.ldx, .zeroPageY) → step s =
      .next { s with
        x := readByte s (zext16 (b + s.y)), z := readByte s (zext16 (b + s.y)) == 0x00
        n := (readByte s (zext16 (b + s.y)))[7], pc := s.pc + 2
        result := some (.ok (baseCycles s.config op)), opcode := op }) ∧
    (entryAtPc s = some (.tax, .implied) → step s =
      .next { s with
        x := s.a, z := s.a == 0x00, n := s.a[7], pc := s.pc + 1
        result := some (.ok (baseCycles s.config op)), opcode := op })

/-- The zero-page pointer under both settings of ZP_POINTER_WRAP (R76). zpReadWord reads its low byte at z and its
high byte at z +8 1 in page 0 for Page0, at the next 16-bit address for Linear; at 0xFF these are 0x0000 and 0x0100.
For z other than 0xFF the setting does not matter. -/
def Obligations.ZeroPagePointerRead : Prop :=
  (∀ (s : State) (z : Byte), s.config.zpPointerWrap = .page0 →
    zpReadWord s z = joinWord (readByte s (zext16 (z + 1))) (readByte s (zext16 z))) ∧
  (∀ (s : State) (z : Byte), s.config.zpPointerWrap = .linear →
    zpReadWord s z = joinWord (readByte s (zext16 z + 1)) (readByte s (zext16 z))) ∧
  (∀ s : State, s.config.zpPointerWrap = .page0 → zpReadWord s 0xFF = joinWord (readByte s 0x0000) (readByte s 0x00FF)) ∧
  (∀ s : State, s.config.zpPointerWrap = .linear → zpReadWord s 0xFF = joinWord (readByte s 0x0100) (readByte s 0x00FF)) ∧
  ∀ (s : State) (z : Byte) (setting : ZpPointerWrap), z ≠ 0xFF →
    zpReadWord { s with config := { s.config with zpPointerWrap := setting } } z = zpReadWord s z

/-- A page is crossed exactly when an indexed 16-bit address leaves the page of its base (R72, R73, R75, R77). crossed
is true exactly for Absolute,X, Absolute,Y and Indirect,Y operands whose effective address has another high byte than
the base: the fetched word, or the pointer word. It is false for every other mode. -/
def Obligations.PageCrossingRule : Prop :=
  ∀ (m : Address) (s : State), (resolve m s).crossed = true ↔
    ∃ base : Word,
      (m = .absoluteX base ∨ m = .absoluteY base ∨ ∃ z : Byte, m = .indirectY z ∧ base = zpReadWord s z) ∧
        hiByte (resolve m s).ea ≠ hiByte base

/-- An indexed access crosses a page exactly when the low byte sum carries (R72, R77, R83). For a 16-bit base and an
8-bit index, the high bytes of base and effective address differ exactly when the base's low byte plus the index is
256 or more, also where the sum wraps from 0xFFxx to 0x00xx; the effective address is (base + index) mod 65536. -/
def Obligations.PageCrossingIsLowByteCarry : Prop :=
  ∀ (base : Word) (index : Byte),
    ((indexed base index).crossed = true ↔ 256 ≤ base.toNat % 256 + index.toNat) ∧
      (indexed base index).ea.toNat = (base.toNat + index.toNat) % 65536

/-- Zero-page addressing never leaves page 0, and a Page0 pointer is read from page 0 alone (R68, R69, R70, R76). The
effective address of Zero-page, Zero-page,X and Zero-page,Y is below 0x0100 and is (base + index) mod 256. Under
Page0, two memories that agree on page 0 give the same pointer words. -/
def Obligations.ZeroPageModesStayInPageZero : Prop :=
  (∀ (z : Byte) (s : State),
    (resolve (.zeroPage z) s).ea.toNat = z.toNat ∧
    (resolve (.zeroPageX z) s).ea.toNat = (z.toNat + s.x.toNat) % 256 ∧
    (resolve (.zeroPageY z) s).ea.toNat = (z.toNat + s.y.toNat) % 256) ∧
  ∀ (s t : State) (z : Byte), s.config.zpPointerWrap = .page0 → t.config.zpPointerWrap = .page0 →
    (∀ a : Word, a.toNat < 256 → readByte s a = readByte t a) → zpReadWord s z = zpReadWord t z

/-- The laws of the store: what was written is read, and nothing else changes (R34, R36, R49). In every state: a byte
written at A is read at A; a word written at A is read at A, also at 0xFFFF; a byte write at a changes no byte at any
other address; writeWord at 0xFFFF writes its low byte to 0xFFFF and its high byte to 0x0000. The last two clauses are
the spec's own inferences: R49 marks them derived from R34 and from R36. -/
def Obligations.StoreLaws : Prop :=
  (∀ (s : State) (a : Word) (v : Byte), readByte (writeByte s a v) a = v) ∧
  (∀ (s : State) (a w : Word), readWord (writeWord s a w) a = w) ∧
  (∀ (s : State) (a b : Word) (v : Byte), b ≠ a → readByte (writeByte s a v) b = readByte s b) ∧
  ∀ (s : State) (w : Word),
    readByte (writeWord s 0xFFFF w) 0xFFFF = loByte w ∧ readByte (writeWord s 0xFFFF w) 0x0000 = hiByte w

/-- A word is two bytes, low byte first, the second address modulo 65536 (R35, R36). readWord(a) has the value M[a] +
256 * M[a +16 1]; at 0xFFFF its high byte is M[0x0000]. After writeWord(a, w) the byte at a is w mod 256, the byte at
a +16 1 is w / 256, and every other byte is as before; the registers, flags and parameters are as before. -/
def Obligations.WordsAreLittleEndian : Prop :=
  (∀ (s : State) (a : Word), (readWord s a).toNat = (readByte s a).toNat + 256 * (readByte s (a + 1)).toNat) ∧
  (∀ s : State, readWord s 0xFFFF = joinWord (readByte s 0x0000) (readByte s 0xFFFF)) ∧
  ∀ (s : State) (a w b : Word),
    (readByte (writeWord s a w) b).toNat =
      (if b = a then w.toNat % 256 else if b = a + 1 then w.toNat / 256 else (readByte s b).toNat) ∧
    writeWord s a w = { s with mem := (writeWord s a w).mem }

/-- Canonical memories that read the same are the same, and rewriting a byte changes nothing (R32, R33, R34). Two
memories in canonical form that agree at every address are equal data, and writing back the byte an address holds
leaves a state with canonical memory as it was. The canonical form is the model's (assumption 1). -/
def Obligations.CanonicalMemoriesAreExtensional : Prop :=
  (∀ m k : Memory, Memory.wf m → Memory.wf k → (∀ a : Nat, Memory.load m a = Memory.load k a) → m = k) ∧
  ∀ (s : State) (a : Word), Inv s → writeByte s a (readByte s a) = s

/-- getStatus packs the seven flags and STATUS_BIT5 at their bit positions (R22). Bits 0, 1, 2, 3, 4, 6 and 7 of
getStatus are C, Z, I, D, B, V and N, and bit 5 is STATUS_BIT5; memory has no part in it. With C, I, B, N set, Z, D, V
clear and STATUS_BIT5 = 0 it is 0x95. -/
def Obligations.StatusBytePacking : Prop :=
  (∀ s : State,
    (getStatus s)[0] = s.c ∧ (getStatus s)[1] = s.z ∧ (getStatus s)[2] = s.i ∧
    (getStatus s)[3] = s.d ∧ (getStatus s)[4] = s.b ∧ (getStatus s)[5] = s.config.statusBit5 ∧
    (getStatus s)[6] = s.v ∧ (getStatus s)[7] = s.n) ∧
  (∀ (s : State) (m : Memory), getStatus { s with mem := m } = getStatus s) ∧
  ∀ s : State, s.config.statusBit5 = false →
    getStatus { s with c := true, z := false, i := true, d := false, b := true, v := false, n := true } = 0x95

/-- setStatus writes the seven flags from their bits and ignores bit 5 (R22, R23). setStatus(b) writes C, Z, I, D, B,
V, N from bits 0, 1, 2, 3, 4, 6, 7 and nothing else. setStatus(getStatus()) changes nothing, and getStatus() after
setStatus(b) is (b & 0xDF) | (STATUS_BIT5 << 5). The last two clauses are the spec's own inference: R23 marks them
derived from R22 and R23. -/
def Obligations.StatusByteUnpacking : Prop :=
  (∀ (s : State) (b : Byte),
    s.setStatus b =
      { s with
        c := b[0], z := b[1], i := b[2], d := b[3], b := b[4], v := b[6]
        n := b[7] }) ∧
  (∀ s : State, s.setStatus (getStatus s) = s) ∧
  ∀ (s : State) (b : Byte),
    getStatus (s.setStatus b) = (b &&& 0xDF) ||| (if s.config.statusBit5 then 0x20 else 0x00)

/-- LDA loads the operand byte into A and sets Z and N (R84). LDA has exactly the opcodes and modes R84 lists. In
every state and for each of these forms (constructors ldaImm, ldaZp, ldaZpX, ldaAbs, ldaAbsX, ldaAbsY, ldaIndX,
ldaIndY) it completes: A becomes the operand byte, Z and N are set from the new value, the count is the base cost of
the fetched opcode byte and one more on a page crossing, and nothing else changes. -/
def Obligations.LdaLoadsAccumulator : Prop :=
  HasForms .lda
    [(0xA9, .immediate), (0xA5, .zeroPage), (0xB5, .zeroPageX), (0xAD, .absolute),
     (0xBD, .absoluteX), (0xB9, .absoluteY), (0xA1, .indirectX), (0xB1, .indirectY)] ∧
  ∀ (i : Instr) (o : Operand) (s : State), i.operation = .lda → i.operand = some o →
    let r := operandByte o s
    exec i s =
      .next { s with
        a := r, z := r == 0x00, n := r[7]
        result := some (.ok (baseCycles s.config s.opcode + if operandCrossed o s then 1 else 0)) }

/-- LDX loads the operand byte into X and sets Z and N (R85). LDX has exactly the opcodes and modes R85 lists. In
every state and for each of these forms (constructors ldxImm, ldxZp, ldxZpY, ldxAbs, ldxAbsY) it completes: X becomes
the operand byte, Z and N are set from the new value, the count is the base cost of the fetched opcode byte and one
more on a page crossing, and nothing else changes. -/
def Obligations.LdxLoadsX : Prop :=
  HasForms .ldx
    [(0xA2, .immediate), (0xA6, .zeroPage), (0xB6, .zeroPageY), (0xAE, .absolute),
     (0xBE, .absoluteY)] ∧
  ∀ (i : Instr) (o : Operand) (s : State), i.operation = .ldx → i.operand = some o →
    let r := operandByte o s
    exec i s =
      .next { s with
        x := r, z := r == 0x00, n := r[7]
        result := some (.ok (baseCycles s.config s.opcode + if operandCrossed o s then 1 else 0)) }

/-- LDY loads the operand byte into Y and sets Z and N (R86). LDY has exactly the opcodes and modes R86 lists. In
every state and for each of these forms (constructors ldyImm, ldyZp, ldyZpX, ldyAbs, ldyAbsX) it completes: Y becomes
the operand byte, Z and N are set from the new value, the count is the base cost of the fetched opcode byte and one
more on a page crossing, and nothing else changes. -/
def Obligations.LdyLoadsY : Prop :=
  HasForms .ldy
    [(0xA0, .immediate), (0xA4, .zeroPage), (0xB4, .zeroPageX), (0xAC, .absolute),
     (0xBC, .absoluteX)] ∧
  ∀ (i : Instr) (o : Operand) (s : State), i.operation = .ldy → i.operand = some o →
    let r := operandByte o s
    exec i s =
      .next { s with
        y := r, z := r == 0x00, n := r[7]
        result := some (.ok (baseCycles s.config s.opcode + if operandCrossed o s then 1 else 0)) }

/-- STA stores A at the effective address and changes nothing else (R87). STA has exactly the opcodes and modes R87
lists. In every state and for each of these forms (constructors staZp, staZpX, staAbs, staAbsX, staAbsY, staIndX,
staIndY) it completes: the byte at the effective address becomes A, the count is the base cost of the fetched opcode
byte and one more on a page crossing if PENALTY_ON_STORES, and no flag, register or other byte changes. That the
address is not read first is not said here: it is the spec's decision D8 (assumption 13). -/
def Obligations.StaStoresAccumulator : Prop :=
  HasForms .sta
    [(0x85, .zeroPage), (0x95, .zeroPageX), (0x8D, .absolute), (0x9D, .absoluteX),
     (0x99, .absoluteY), (0x81, .indirectX), (0x91, .indirectY)] ∧
  ∀ (i : Instr) (m : Address) (s : State), i.operation = .sta → i.operand = some (.memory m) →
    exec i s =
        .next { s with
          mem := (writeByte s (resolve m s).ea s.a).mem
          result := some (.ok (baseCycles s.config s.opcode + if (resolve m s).crossed && s.config.penaltyOnStores then 1 else 0)) } ∧
      ∀ (t : State) (a : Word), exec i s = .next t →
        readByte t a = if a = (resolve m s).ea then s.a else readByte s a

/-- STX stores X at the effective address and changes nothing else (R88). STX has exactly the opcodes and modes R88
lists. In every state and for each of these forms (constructors stxZp, stxZpY, stxAbs) it completes: the byte at the
effective address becomes X, the count is the base cost of the fetched opcode byte with no crossing penalty, and no
flag, register or other byte changes. That the address is not read first is not said here: it is the spec's decision
D8 (assumption 13). -/
def Obligations.StxStoresX : Prop :=
  HasForms .stx
    [(0x86, .zeroPage), (0x96, .zeroPageY), (0x8E, .absolute)] ∧
  ∀ (i : Instr) (m : Address) (s : State), i.operation = .stx → i.operand = some (.memory m) →
    exec i s =
        .next { s with
          mem := (writeByte s (resolve m s).ea s.x).mem
          result := some (.ok (baseCycles s.config s.opcode)) } ∧
      ∀ (t : State) (a : Word), exec i s = .next t →
        readByte t a = if a = (resolve m s).ea then s.x else readByte s a

/-- STY stores Y at the effective address and changes nothing else (R89). STY has exactly the opcodes and modes R89
lists. In every state and for each of these forms (constructors styZp, styZpX, styAbs) it completes: the byte at the
effective address becomes Y, the count is the base cost of the fetched opcode byte with no crossing penalty, and no
flag, register or other byte changes. That the address is not read first is not said here: it is the spec's decision
D8 (assumption 13). -/
def Obligations.StyStoresY : Prop :=
  HasForms .sty
    [(0x84, .zeroPage), (0x94, .zeroPageX), (0x8C, .absolute)] ∧
  ∀ (i : Instr) (m : Address) (s : State), i.operation = .sty → i.operand = some (.memory m) →
    exec i s =
        .next { s with
          mem := (writeByte s (resolve m s).ea s.y).mem
          result := some (.ok (baseCycles s.config s.opcode)) } ∧
      ∀ (t : State) (a : Word), exec i s = .next t →
        readByte t a = if a = (resolve m s).ea then s.y else readByte s a

/-- TAX, TAY, TXA, TYA and TSX copy a register and set Z and N from it (R90, R91, R92, R93, R94). In every state TAX
(0xAA), TAY (0xA8), TXA (0x8A), TYA (0x98) and TSX (0xBA) complete: the destination becomes the source, Z and N come
from the new destination value, the base cost of the fetched opcode byte is returned, and nothing else changes, memory
included. -/
def Obligations.TransfersCopyAndSetZN : Prop :=
  (Instr.tax.opcode = 0xAA ∧ Instr.tax.mode = .implied ∧ ∀ s : State, exec .tax s =
    .next { s with x := s.a, z := s.a == 0x00, n := s.a[7], result := some (.ok (baseCycles s.config s.opcode)) }) ∧
  (Instr.tay.opcode = 0xA8 ∧ Instr.tay.mode = .implied ∧ ∀ s : State, exec .tay s =
    .next { s with y := s.a, z := s.a == 0x00, n := s.a[7], result := some (.ok (baseCycles s.config s.opcode)) }) ∧
  (Instr.txa.opcode = 0x8A ∧ Instr.txa.mode = .implied ∧ ∀ s : State, exec .txa s =
    .next { s with a := s.x, z := s.x == 0x00, n := s.x[7], result := some (.ok (baseCycles s.config s.opcode)) }) ∧
  (Instr.tya.opcode = 0x98 ∧ Instr.tya.mode = .implied ∧ ∀ s : State, exec .tya s =
    .next { s with a := s.y, z := s.y == 0x00, n := s.y[7], result := some (.ok (baseCycles s.config s.opcode)) }) ∧
  (Instr.tsx.opcode = 0xBA ∧ Instr.tsx.mode = .implied ∧ ∀ s : State, exec .tsx s =
    .next { s with x := s.sp, z := s.sp == 0x00, n := s.sp[7], result := some (.ok (baseCycles s.config s.opcode)) })

/-- TXS copies X to SP and writes no flag (R95). In every state TXS (0x9A) completes: SP becomes X, whatever X is, the
base cost of the fetched opcode byte is returned, and nothing else changes: no flag, no memory byte. -/
def Obligations.TxsCopiesWithoutFlags : Prop :=
  Instr.txs.opcode = 0x9A ∧ Instr.txs.mode = .implied ∧
  ∀ s : State, exec .txs s = .next { s with sp := s.x, result := some (.ok (baseCycles s.config s.opcode)) }

/-- PHA writes A at the stack address and decrements SP (R98). In every state PHA (0x48) completes: the byte at 0x0100
+ SP becomes A, SP becomes SP - 1 modulo 256 (0x00 wraps to 0xFF), no flag or other register changes and no other
byte. -/
def Obligations.PhaPushesAccumulator : Prop :=
  Instr.pha.opcode = 0x48 ∧ Instr.pha.mode = .implied ∧
  ∀ s : State, exec .pha s =
    .next { s with
      mem := (writeByte s (0x0100 + zext16 s.sp) s.a).mem, sp := s.sp - 1
      result := some (.ok (baseCycles s.config s.opcode)) }

/-- PHP writes the packed status byte at the stack address and decrements SP (R99, R22). In every state PHP (0x08)
completes: the byte at 0x0100 + SP becomes getStatus(), in which bit 4 is the stored B and bit 5 is STATUS_BIT5, SP
becomes SP - 1 modulo 256, and no flag, register or other byte changes. That the pushed bits 4 and 5 are these is the
spec's decision D6. -/
def Obligations.PhpPushesStatus : Prop :=
  Instr.php.opcode = 0x08 ∧ Instr.php.mode = .implied ∧
  (∀ s : State, (getStatus s)[4] = s.b ∧ (getStatus s)[5] = s.config.statusBit5) ∧
  ∀ s : State, exec .php s =
    .next { s with
      mem := (writeByte s (0x0100 + zext16 s.sp) (getStatus s)).mem, sp := s.sp - 1
      result := some (.ok (baseCycles s.config s.opcode)) }

/-- PLA increments SP, reads the stack byte into A and sets Z and N (R100). In every state PLA (0x68) completes: SP
becomes SP + 1 modulo 256 (0xFF wraps to 0x00), A becomes the byte at 0x0100 + the new SP, Z and N come from the new
A, and nothing else changes, memory included. -/
def Obligations.PlaPullsAccumulator : Prop :=
  Instr.pla.opcode = 0x68 ∧ Instr.pla.mode = .implied ∧
  ∀ s : State,
    let v := readByte s (0x0100 + zext16 (s.sp + 1))
    exec .pla s =
      .next { s with
        sp := s.sp + 1, a := v, z := v == 0x00, n := v[7], result := some (.ok (baseCycles s.config s.opcode)) }

/-- PLP increments SP and writes all seven flags from the stack byte (R101). In every state PLP (0x28) completes: SP
becomes SP + 1 modulo 256, C, Z, I, D, B, V, N become bits 0, 1, 2, 3, 4, 6, 7 of the byte at 0x0100 + the new SP, bit
5 is ignored, and nothing else changes, memory included. -/
def Obligations.PlpPullsStatus : Prop :=
  Instr.plp.opcode = 0x28 ∧ Instr.plp.mode = .implied ∧
  ∀ s : State,
    let p := readByte s (0x0100 + zext16 (s.sp + 1))
    exec .plp s =
      .next { s with
        sp := s.sp + 1, c := p[0], z := p[1], i := p[2], d := p[3], b := p[4]
        v := p[6], n := p[7], result := some (.ok (baseCycles s.config s.opcode)) }

/-- AND replaces A by A & v and sets Z and N (R102). AND has exactly the opcodes and modes R102 lists. In every state
and for each of these forms (constructors andImm, andZp, andZpX, andAbs, andAbsX, andAbsY, andIndX, andIndY) it
completes: A becomes the bitwise AND of A and the operand byte, Z and N are set from the new value, the count is the
base cost of the fetched opcode byte and one more on a page crossing, and nothing else changes. -/
def Obligations.AndMasksAccumulator : Prop :=
  HasForms .and
    [(0x29, .immediate), (0x25, .zeroPage), (0x35, .zeroPageX), (0x2D, .absolute),
     (0x3D, .absoluteX), (0x39, .absoluteY), (0x21, .indirectX), (0x31, .indirectY)] ∧
  ∀ (i : Instr) (o : Operand) (s : State), i.operation = .and → i.operand = some o →
    let r := s.a &&& operandByte o s
    exec i s =
      .next { s with
        a := r, z := r == 0x00, n := r[7]
        result := some (.ok (baseCycles s.config s.opcode + if operandCrossed o s then 1 else 0)) }

/-- EOR replaces A by A ^ v and sets Z and N (R103). EOR has exactly the opcodes and modes R103 lists. In every state
and for each of these forms (constructors eorImm, eorZp, eorZpX, eorAbs, eorAbsX, eorAbsY, eorIndX, eorIndY) it
completes: A becomes the exclusive OR of A and the operand byte, Z and N are set from the new value, the count is the
base cost of the fetched opcode byte and one more on a page crossing, and nothing else changes. -/
def Obligations.EorTogglesAccumulator : Prop :=
  HasForms .eor
    [(0x49, .immediate), (0x45, .zeroPage), (0x55, .zeroPageX), (0x4D, .absolute),
     (0x5D, .absoluteX), (0x59, .absoluteY), (0x41, .indirectX), (0x51, .indirectY)] ∧
  ∀ (i : Instr) (o : Operand) (s : State), i.operation = .eor → i.operand = some o →
    let r := s.a ^^^ operandByte o s
    exec i s =
      .next { s with
        a := r, z := r == 0x00, n := r[7]
        result := some (.ok (baseCycles s.config s.opcode + if operandCrossed o s then 1 else 0)) }

/-- ORA replaces A by A | v and sets Z and N (R104). ORA has exactly the opcodes and modes R104 lists. In every state
and for each of these forms (constructors oraImm, oraZp, oraZpX, oraAbs, oraAbsX, oraAbsY, oraIndX, oraIndY) it
completes: A becomes the bitwise OR of A and the operand byte, Z and N are set from the new value, the count is the
base cost of the fetched opcode byte and one more on a page crossing, and nothing else changes. -/
def Obligations.OraSetsAccumulatorBits : Prop :=
  HasForms .ora
    [(0x09, .immediate), (0x05, .zeroPage), (0x15, .zeroPageX), (0x0D, .absolute),
     (0x1D, .absoluteX), (0x19, .absoluteY), (0x01, .indirectX), (0x11, .indirectY)] ∧
  ∀ (i : Instr) (o : Operand) (s : State), i.operation = .ora → i.operand = some o →
    let r := s.a ||| operandByte o s
    exec i s =
      .next { s with
        a := r, z := r == 0x00, n := r[7]
        result := some (.ok (baseCycles s.config s.opcode + if operandCrossed o s then 1 else 0)) }

/-- A read operation takes the immediate byte, or one byte at the effective address (R67, R77, R78). The operand of a
read operation is the immediate byte, never crossed, or the byte at the resolved effective address, crossed as that
address is. That there is no other read of data is not said here: it is the spec's decision D8 (assumption 13). -/
def Obligations.OperandOfReadOperation : Prop :=
  (∀ (v : Byte) (s : State), operandByte (.immediate v) s = v ∧ operandCrossed (.immediate v) s = false) ∧
  ∀ (m : Address) (s : State), operandByte (.memory m) s = readByte s (resolve m s).ea ∧
    operandCrossed (.memory m) s = (resolve m s).crossed

/-- Which instruction writes which flag, for all instructions at once (R26, R84, R87, R90, R95, R98, R99, R100, R101,
R102, R105). For every instruction that completes: C, I, D, B and V are unchanged unless it is PLP, which writes all
seven flags from the byte it pulls; Z and N are set from the new A by LDA, TXA, TYA, PLA, AND, EOR, ORA, from the new
X by LDX, TAX, TSX, from the new Y by LDY, TAY, and are unchanged by STA, STX, STY, TXS, PHA, PHP. An Unknown-Opcode
step changes no flag. The table of R26 is the spec's own inference from R84 to R104. -/
def Obligations.FlagWriteTable : Prop :=
  (∀ (i : Instr) (s t : State), exec i s = .next t →
    (i ≠ .plp → t.c = s.c ∧ t.i = s.i ∧ t.d = s.d ∧ t.b = s.b ∧ t.v = s.v) ∧
    (i = .plp → ∃ p : Byte, p = readByte s (0x0100 + zext16 (s.sp + 1)) ∧ t.c = p[0] ∧ t.z = p[1] ∧
      t.i = p[2] ∧ t.d = p[3] ∧ t.b = p[4] ∧ t.v = p[6] ∧ t.n = p[7]) ∧
    (i.operation ∈ [.lda, .txa, .tya, .pla, .and, .eor, .ora] → t.z = (t.a == 0x00) ∧ t.n = t.a[7]) ∧
    (i.operation ∈ [.ldx, .tax, .tsx] → t.z = (t.x == 0x00) ∧ t.n = t.x[7]) ∧
    (i.operation ∈ [.ldy, .tay] → t.z = (t.y == 0x00) ∧ t.n = t.y[7]) ∧
    (i.operation ∈ [.sta, .stx, .sty, .txs, .pha, .php] → t.z = s.z ∧ t.n = s.n)) ∧
  ∀ (s u : State) (op : Byte), step s = .fault (.unknownOpcode op u) →
    u.c = s.c ∧ u.z = s.z ∧ u.i = s.i ∧ u.d = s.d ∧ u.b = s.b ∧ u.v = s.v ∧ u.n = s.n

/-- Which instruction writes which register, for all instructions at once (R12, R13, R14, R15, R17, R25). For every
instruction that completes: A is unchanged unless it is LDA, TXA, TYA, PLA, AND, EOR or ORA; X unless it is LDX, TAX
or TSX; Y unless it is LDY or TAY; SP unless it is TXS, PHA, PHP, PLA or PLP; PC and the parameters always. It is the
writing half of the register access table. -/
def Obligations.RegisterWriteFrame : Prop :=
  ∀ (i : Instr) (s t : State), exec i s = .next t →
    (i.operation ∉ [.lda, .txa, .tya, .pla, .and, .eor, .ora] → t.a = s.a) ∧
    (i.operation ∉ [.ldx, .tax, .tsx] → t.x = s.x) ∧
    (i.operation ∉ [.ldy, .tay] → t.y = s.y) ∧
    (i.operation ∉ [.txs, .pha, .php, .pla, .plp] → t.sp = s.sp) ∧
    t.pc = s.pc ∧ t.config = s.config

/-- Only stores and pushes write memory, one byte, at their own address (R34, R40, R79, R96, R97). For every
instruction that completes: STA, STX and STY write their register at the effective address computed in the state
before, PHA and PHP write A and the status byte at 0x0100 + SP, and every other byte reads as before; the other
instructions leave every byte as it was. -/
def Obligations.MemoryFrame : Prop :=
  (∀ (i : Instr) (s : State),
    (stored i s).isSome = true ↔ i.operation ∈ [.sta, .stx, .sty, .pha, .php]) ∧
  ∀ (i : Instr) (s t : State), exec i s = .next t →
    match stored i s with
    | some (ea, v) => ∀ a : Word, readByte t a = if a = ea then v else readByte s a
    | none => ∀ a : Word, readByte t a = readByte s a

/-- No instruction but PHP reads a flag (R19, R20, R21). Two steps from states that differ at most in the flags, at an
opcode byte whose entry is not PHP: both complete, or both fail with the same byte, and the states they leave differ
at most in the flags. Of the flags, those the instruction writes are equal in the two (all seven for PLP; Z and N for
LDA, LDX, LDY, TAX, TAY, TXA, TYA, TSX, PLA, AND, EOR, ORA), and every other flag is in each what it was in that one's
own start; so no flag changes what another instruction does to a register, a flag, memory, PC or the cycle count. -/
def Obligations.FlagsAreReadByPhpAlone : Prop :=
  ∀ s t : State, SameButFlags s t → entryAtPc s ≠ some (.php, .implied) →
    (∀ u : State, step s = .next u →
      ∃ (w : State) (op : Operation) (m : Mode), entryAtPc s = some (op, m) ∧ step t = .next w ∧ SameButFlags u w ∧
        (if op = .plp then SameCidbv u w ∧ SameZn u w
         else SameCidbv u s ∧ SameCidbv w t ∧
          (if op ∈ [.lda, .ldx, .ldy, .tax, .tay, .txa, .tya, .tsx, .pla, .and, .eor, .ora] then SameZn u w
           else SameZn u s ∧ SameZn w t))) ∧
    ∀ (op : Byte) (u : State), step s = .fault (.unknownOpcode op u) →
      ∃ w : State, step t = .fault (.unknownOpcode op w) ∧ SameButFlags u w ∧
        SameCidbv u s ∧ SameZn u s ∧ SameCidbv w t ∧ SameZn w t

/-- What the last step returned or fetched influences nothing (R28, R125). A step answers the same whatever the last
step returned and whatever opcode byte it fetched: the model's own fields result and opcode carry nothing from step to
step (assumptions 8 and 19), as R28 has no hidden state and R125 makes the cycle count an output. -/
def Obligations.ReturnedValueIsNeverRead : Prop :=
  ∀ (s : State) (r : Option StepResult) (op : Byte), step { s with result := r, opcode := op } = step s

/-- No step and no action of the host changes the parameters (R7, R28). The setting of the parameters is the same
after every completed step, after every failed step, and after every action of the host. The config field is the
model's (assumption 2). -/
def Obligations.ParametersNeverChange : Prop :=
  (∀ s t : State, stateAfter (step s) = some t → t.config = s.config) ∧
  ∀ (act : HostAction) (s : State), (hostAct act s).config = s.config

/-- Push writes then decrements, pop increments then reads, and a pop undoes a push (R96, R97). stackPush(v) writes v
at 0x0100 + SP and decrements SP modulo 256; stackPop increments SP modulo 256 and gives the byte at 0x0100 + the new
SP, clearing nothing. At SP = 0x00 a push writes 0x0100 and leaves 0xFF; at 0xFF a pop leaves 0x00 and reads 0x0100.
Pushing v and popping gives v and the old SP. No flag changes. -/
def Obligations.StackPrimitives : Prop :=
  (∀ (s : State) (v : Byte),
    stackPush s v = { s with mem := (writeByte s (0x0100 + zext16 s.sp) v).mem, sp := s.sp - 1 }) ∧
  (∀ s : State, stackPop s = (readByte s (0x0100 + zext16 (s.sp + 1)), { s with sp := s.sp + 1 })) ∧
  (∀ (s : State) (v : Byte), s.sp = 0x00 → (stackPush s v).sp = 0xFF ∧ readByte (stackPush s v) 0x0100 = v) ∧
  (∀ s : State, s.sp = 0xFF → (stackPop s).2.sp = 0x00 ∧ (stackPop s).1 = readByte s 0x0100) ∧
  ∀ (s : State) (v : Byte), (stackPop (stackPush s v)).1 = v ∧ (stackPop (stackPush s v)).2.sp = s.sp

/-- PLA after PHA restores A and SP, and PLP after PHP restores all seven flags and SP (R22, R23, R96, R97, R98, R99,
R100, R101). From every state PHA then PLA complete and give back A, SP, X, Y, C, I, D, B and V; PHP then PLP complete
and give back the seven flags, SP and every register, under either STATUS_BIT5. In both only the pushed byte of memory
differs. -/
def Obligations.PullUndoesPush : Prop :=
  (∀ s : State, ∃ t u : State, exec .pha s = .next t ∧ exec .pla t = .next u ∧
    u.a = s.a ∧ u.sp = s.sp ∧ u.x = s.x ∧ u.y = s.y ∧ u.pc = s.pc ∧
    u.c = s.c ∧ u.i = s.i ∧ u.d = s.d ∧ u.b = s.b ∧ u.v = s.v ∧ u.z = (s.a == 0x00) ∧ u.n = s.a[7] ∧
    ∀ a : Word, a ≠ 0x0100 + zext16 s.sp → readByte u a = readByte s a) ∧
  ∀ s : State, ∃ t u : State, exec .php s = .next t ∧ exec .plp t = .next u ∧
    u.c = s.c ∧ u.z = s.z ∧ u.i = s.i ∧ u.d = s.d ∧ u.b = s.b ∧ u.v = s.v ∧ u.n = s.n ∧
    u.a = s.a ∧ u.sp = s.sp ∧ u.x = s.x ∧ u.y = s.y ∧ u.pc = s.pc ∧
    ∀ a : Word, a ≠ 0x0100 + zext16 s.sp → readByte u a = readByte s a

/-- Every push, whatever SP is, writes inside 0x0100 to 0x01FF only (R15, R96). The stack address of every SP lies in
0x0100 to 0x01FF, two values of SP have two addresses, and PHA and PHP change no byte outside that page. -/
def Obligations.StackNeverLeavesPageOne : Prop :=
  (∀ sp : Byte, (stackAddress sp).toNat = 256 + sp.toNat) ∧
  ∀ (i : Instr) (s t : State) (a : Word), i = .pha ∨ i = .php → exec i s = .next t →
    (a.toNat < 0x0100 ∨ 0x01FF < a.toNat) → readByte t a = readByte s a

/-- reset() loads PC from the vector, sets SP to 0xFF, and clears A, X, Y and all flags (R117). From every state reset
leaves PC = M[0xFFFD] : M[0xFFFC], SP = 0xFF, A = X = Y = 0 and all seven flags false. -/
def Obligations.ResetTransition : Prop :=
  ∀ s : State,
    (resetCpu s).pc = joinWord (readByte s 0xFFFD) (readByte s 0xFFFC) ∧ (resetCpu s).sp = 0xFF ∧
    (resetCpu s).a = 0x00 ∧ (resetCpu s).x = 0x00 ∧ (resetCpu s).y = 0x00 ∧ (resetCpu s).c = false ∧
    (resetCpu s).z = false ∧ (resetCpu s).i = false ∧ (resetCpu s).d = false ∧ (resetCpu s).b = false ∧
    (resetCpu s).v = false ∧ (resetCpu s).n = false

/-- Reset is idempotent and depends on memory alone (R118). Two resets in a row leave the state one leaves, and two
states with the same memory and parameters are reset to the same state, whatever their registers and flags were. -/
def Obligations.ResetForgetsTheCpuState : Prop :=
  (∀ s : State, resetCpu (resetCpu s) = resetCpu s) ∧
  ∀ s t : State, s.mem = t.mem → s.config = t.config → resetCpu s = resetCpu t

/-- The register and flag values after reset (R30, R117, R119). After reset from any state PC is the little-endian
word at 0xFFFC, SP is 0xFF, A, X and Y are 0x00, the seven flags are false, getStatus is STATUS_BIT5 << 5 (0x00 at the
default) and memory is unchanged. That memory is unchanged rests on the spec's decision D10. -/
def Obligations.ResetValues : Prop :=
  ∀ s : State,
    (resetCpu s).pc = readWord s 0xFFFC ∧ (resetCpu s).sp = 0xFF ∧ (resetCpu s).a = 0x00 ∧ (resetCpu s).x = 0x00 ∧
    (resetCpu s).y = 0x00 ∧ (resetCpu s).c = false ∧ (resetCpu s).z = false ∧ (resetCpu s).i = false ∧
    (resetCpu s).d = false ∧ (resetCpu s).b = false ∧ (resetCpu s).v = false ∧ (resetCpu s).n = false ∧
    getStatus (resetCpu s) = (if s.config.statusBit5 then 0x20 else 0x00) ∧ (resetCpu s).mem = s.mem

/-- The start state is what reset() leaves over a memory that lists nothing (R30, R117). State.reset is the state
reset leaves from any registers and flags when memory lists nothing and the parameters are the defaults. That memory
reads 0x00 everywhere, and so that PC is 0x0000, is the model's choice (assumption 1). -/
def Obligations.ResetStateIsAReset : Prop :=
  ∀ s : State, s.mem = [] → s.config = defaultConfig → resetCpu s = State.reset

/-- An accessor write sets exactly the register or flag it names, and each other move of the host is its operation
(R27). A write of A, X, Y, SP or PC, or of one of the seven flags, by the host leaves the state with that one register
or flag at the value and everything else as before; a read gives the register or flag; setStatus writes the seven
flags from the packed byte. The host's memory writes are writeByte and writeWord, after which the byte or word reads
as written, and its reset is resetCpu (the moves of R114). -/
def Obligations.HostAccessors : Prop :=
  (∀ (s : State) (u : Byte),
    hostAct (.writeRegister .a u) s = { s with a := u } ∧ hostAct (.writeRegister .x u) s = { s with x := u } ∧
    hostAct (.writeRegister .y u) s = { s with y := u } ∧ hostAct (.writeRegister .sp u) s = { s with sp := u } ∧
    hostAct (.setStatus u) s = s.setStatus u) ∧
  (∀ (s : State) (w : Word), hostAct (.writePc w) s = { s with pc := w }) ∧
  (∀ (s : State) (u : Bool),
    hostAct (.writeFlag .carry u) s = { s with c := u } ∧ hostAct (.writeFlag .zero u) s = { s with z := u } ∧
    hostAct (.writeFlag .interruptDisable u) s = { s with i := u } ∧
    hostAct (.writeFlag .decimalMode u) s = { s with d := u } ∧ hostAct (.writeFlag .break_ u) s = { s with b := u } ∧
    hostAct (.writeFlag .overflow u) s = { s with v := u } ∧ hostAct (.writeFlag .negative u) s = { s with n := u }) ∧
  (∀ (s : State) (a w : Word) (u : Byte),
    hostAct (.writeByte a u) s = writeByte s a u ∧ readByte (hostAct (.writeByte a u) s) a = u ∧
    hostAct (.writeWord a w) s = writeWord s a w ∧ readWord (hostAct (.writeWord a w) s) a = w ∧
    hostAct .reset s = resetCpu s) ∧
  ∀ s : State,
    s.getRegister .a = s.a ∧ s.getRegister .x = s.x ∧ s.getRegister .y = s.y ∧ s.getRegister .sp = s.sp ∧
    s.getFlag .carry = s.c ∧ s.getFlag .zero = s.z ∧ s.getFlag .interruptDisable = s.i ∧ s.getFlag .decimalMode = s.d ∧
    s.getFlag .break_ = s.b ∧ s.getFlag .overflow = s.v ∧ s.getFlag .negative = s.n

/-- A stored byte is what the next fetch of that address reads (R46, R123). After STA, STX or STY completes, the next
fetch at the stored address gives the stored byte, and a fetch anywhere else gives what it gave before; no barrier is
needed. -/
def Obligations.StoresAreSeenByFetch : Prop :=
  ∀ (i : Instr) (s t : State) (ea a : Word) (v : Byte), isStore i = true → stored i s = some (ea, v) →
    exec i s = .next t → (fetchByte (t.setPc a)).1 = if a = ea then v else (fetchByte (s.setPc a)).1

/-- A store into its own operand bytes does not change the instruction being executed (R46, R61, R87, R123). When the
byte at PC has the entry STA Absolute and its operand is the address of its own first operand byte, the step
completes: that byte becomes A, every other byte is as before, PC is three further, although the instruction now in
memory stores elsewhere. -/
def Obligations.StoreIntoOwnOperand : Prop :=
  ∀ s : State, entryAtPc s = some (.sta, .absolute) → readWord s (s.pc + 1) = s.pc + 1 →
    ∃ t : State, step s = .next t ∧ t.pc = s.pc + 3 ∧
      ∀ a : Word, readByte t a = if a = s.pc + 1 then s.a else readByte s a

/-- Every step keeps the memory in canonical form (R32, R34, R42). From every state whose memory is in canonical form
(addresses strictly rising and below 65536, no cell holding the byte an unlisted address reads as), a step that
completes leaves such a state, and so does one that fails. The form is the model's (assumption 1); that it is kept is
that every access is a byte of the 64 KiB space. -/
def Obligations.StepKeepsMemoryCanonical : Prop :=
  (∀ s t : State, Inv s → step s = .next t → Inv t) ∧
  ∀ (s u : State) (op : Byte), Inv s → step s = .fault (.unknownOpcode op u) → Inv u

/-- The start state has its memory in canonical form (R30, R32). State.reset meets the invariant. The canonical form,
and that the memory of State.reset lists nothing, are the model's choice (assumption 1). -/
def Obligations.ResetMemoryIsCanonical : Prop :=
  Inv State.reset

/-- Whatever the host does between steps, the memory stays canonical and the parameters fixed (R32, R44, R110, R114).
From any state with canonical memory, every state reached by steps and host actions in any order (resets, accessor
writes, memory writes, going on after an Unknown-Opcode) has canonical memory and the same parameters. The canonical
form and the field that holds the parameters are the model's (assumptions 1 and 2); that the host may act between any
two steps is R44 and R114. -/
def Obligations.ReachableStatesStayCanonical : Prop :=
  ∀ s t : State, Inv s → Reaches s t → Inv t ∧ t.config = s.config
end

