-- ==== Sys2Proof/Laws/Bits.lean ====
section
/-! SUPPORT. The byte and word helpers as numbers: halves of a joined word, and a byte as a word. -/

namespace Sys2Proof.Machine

@[simp] theorem zext16_toNat (b : Byte) : (zext16 b).toNat = b.toNat := by
  have := b.isLt
  simp only [zext16, BitVec.toNat_setWidth]
  omega

@[simp] theorem hiByte_toNat (w : Word) : (hiByte w).toNat = w.toNat / 256 := by
  have := w.isLt
  simp only [hiByte, BitVec.extractLsb'_toNat, Nat.shiftRight_eq_div_pow]
  omega

@[simp] theorem loByte_toNat (w : Word) : (loByte w).toNat = w.toNat % 256 := by
  simp [loByte, BitVec.extractLsb'_toNat]

@[simp] theorem joinWord_toNat (hi lo : Byte) : (joinWord hi lo).toNat = hi.toNat * 256 + lo.toNat := by
  have h := BitVec.toNat_append hi lo
  rw [← Nat.shiftLeft_add_eq_or_of_lt lo.isLt, Nat.shiftLeft_eq] at h
  exact h

@[simp] theorem hiByte_joinWord (hi lo : Byte) : hiByte (joinWord hi lo) = hi := by
  have := lo.isLt
  apply BitVec.eq_of_toNat_eq
  rw [hiByte_toNat, joinWord_toNat]
  omega

@[simp] theorem loByte_joinWord (hi lo : Byte) : loByte (joinWord hi lo) = lo := by
  have := lo.isLt
  apply BitVec.eq_of_toNat_eq
  rw [loByte_toNat, joinWord_toNat]
  omega

@[simp] theorem joinWord_halves (w : Word) : joinWord (hiByte w) (loByte w) = w := by
  apply BitVec.eq_of_toNat_eq
  rw [joinWord_toNat, hiByte_toNat, loByte_toNat]
  omega

end Sys2Proof.Machine
end

