-- ==== Sys2Proof/Laws/Decode.lean ====
section
/-! SUPPORT. What a lookup in the opcode table and a decoding can give, under every setting of `OPCODE_TABLE`. -/

namespace Sys2Proof

open Sys2Proof.Machine (hiByte loByte joinWord)

/-- Every instruction of the form has the operation and mode of its sample, and exactly the operand bytes it is made of
(R52). -/
def Form.Regular (form : Form) : Prop :=
  match form with
  | .implied i => i.operandBytes = []
  | .byte mk => ∀ b, (mk b).operation = (mk 0x00).operation ∧ (mk b).mode = (mk 0x00).mode ∧ (mk b).operandBytes = [b]
  | .word mk => ∀ w, (mk w).operation = (mk 0x0000).operation ∧ (mk w).mode = (mk 0x0000).mode ∧
      (mk w).operandBytes = [loByte w, hiByte w]

/-- Every row of the default table is regular. -/
theorem opcodeRows_regular : ∀ r ∈ opcodeRows, r.form.Regular := by
  simp only [opcodeRows, ldaRows, ldxRows, ldyRows, storeRows, transferRows, stackRows, andRows, eorRows, oraRows,
    List.cons_append, List.nil_append, List.forall_mem_cons]
  and_intros <;>
    first
      | rfl
      | exact fun _ => ⟨rfl, rfl, rfl⟩
      | simp

/-- A form that a lookup gives is a row's. -/
theorem lookupOpcode_mem {table : OpcodeOverrides} {op : Byte} {form : Form} (h : lookupOpcode table op = some form) :
    ∃ r ∈ opcodeRows, r.form = form := by
  unfold lookupOpcode at h
  split at h
  · obtain ⟨r, hr, rfl⟩ := Option.map_eq_some_iff.mp h
    exact ⟨r, List.mem_of_find?_eq_some hr, rfl⟩
  · cases h
  · obtain ⟨r, hr, rfl⟩ := Option.map_eq_some_iff.mp h
    exact ⟨r, List.mem_of_find?_eq_some hr, rfl⟩

/-- A form that a lookup gives is regular. -/
theorem lookupOpcode_regular {table : OpcodeOverrides} {op : Byte} {form : Form}
    (h : lookupOpcode table op = some form) : form.Regular := by
  obtain ⟨r, hr, rfl⟩ := lookupOpcode_mem h
  exact opcodeRows_regular r hr

/-- A row found by a pair of operation and mode makes instructions of that pair. -/
theorem rowOf_sample {o : Operation} {m : Mode} {r : OpcodeRow} (h : rowOf o m = some r) :
    r.form.sample.operation = o ∧ r.form.sample.mode = m := by
  simpa using List.find?_some h

/-- Everything a decoding can give: the byte's form, and an instruction of its operation and mode whose operand bytes
follow the opcode. -/
theorem decodeWith_ok {table : OpcodeOverrides} {bytes rest : List Byte} {i : Instr}
    (h : decodeWith table bytes = .ok (i, rest)) :
    ∃ (op : Byte) (form : Form), lookupOpcode table op = some form ∧ bytes = op :: (i.operandBytes ++ rest) ∧
      i.operation = form.sample.operation ∧ i.mode = form.sample.mode := by
  cases bytes with
  | nil => cases h
  | cons op bytes =>
    cases hl : lookupOpcode table op with
    | none => simp [decodeWith, hl] at h
    | some form =>
      have hr := lookupOpcode_regular hl
      refine ⟨op, form, hl, ?_⟩
      cases form with
      | implied j =>
        simp [decodeWith, hl] at h
        obtain ⟨rfl, rfl⟩ := h
        exact ⟨by rw [show j.operandBytes = [] from hr]; rfl, rfl, rfl⟩
      | byte mk =>
        match bytes, h with
        | [], h => simp [decodeWith, hl] at h
        | b :: bytes, h =>
          simp [decodeWith, hl] at h
          obtain ⟨rfl, rfl⟩ := h
          exact ⟨by rw [(hr b).2.2]; rfl, (hr b).1, (hr b).2.1⟩
      | word mk =>
        match bytes, h with
        | [], h => simp [decodeWith, hl] at h
        | [_], h => simp [decodeWith, hl] at h
        | lo :: hi :: bytes, h =>
          simp [decodeWith, hl] at h
          obtain ⟨rfl, rfl⟩ := h
          exact ⟨by rw [(hr _).2.2]; simp, (hr _).1, (hr _).2.1⟩

end Sys2Proof
end

