-- ==== Sys2Proof/Laws/Memory.lean ====
section
/-! SUPPORT. The store: what a byte reads as after a store, and that the canonical form is kept. -/

namespace Sys2Proof.Machine

theorem Memory.load_of_not_listed {m : Memory} {a : Nat} (h : ∀ c ∈ m, c.1 ≠ a) :
    Memory.load m a = unlistedByte := by
  induction m with
  | nil => rfl
  | cons c m ih =>
    obtain ⟨k, w⟩ := c
    rw [Memory.load, if_neg (h (k, w) (by simp))]
    exact ih fun c hc => h c (by simp [hc])

theorem Memory.load_of_listed {m : Memory} (hm : m.Pairwise (fun c d => c.1 < d.1)) {c : Host.Cell} (hc : c ∈ m) :
    Memory.load m c.1 = c.2 := by
  induction m with
  | nil => simp at hc
  | cons d m ih =>
    obtain ⟨k, w⟩ := d
    rw [List.pairwise_cons] at hm
    rcases List.mem_cons.mp hc with rfl | hc
    · simp [Memory.load]
    · rw [Memory.load, if_neg (Nat.ne_of_lt (hm.1 c hc))]
      exact ih hm.2 hc

theorem Memory.load_filter (m : Memory) (a b : Nat) :
    Memory.load (m.filter (fun c => c.1 != a)) b = if b = a then unlistedByte else Memory.load m b := by
  induction m with
  | nil => simp [Memory.load]
  | cons c m ih =>
    obtain ⟨k, w⟩ := c
    by_cases hk : k = a
    · subst hk
      rw [List.filter_cons_of_neg (by simp), ih]
      by_cases hb : b = k
      · simp [hb]
      · rw [if_neg hb, if_neg hb, Memory.load, if_neg (Ne.symm hb)]
    · rw [List.filter_cons_of_pos (by simp [hk]), Memory.load, ih, Memory.load]
      by_cases hb : b = a
      · subst hb
        simp [hk]
      · simp [hb]

theorem Memory.load_insertCell {m : Memory} {a : Nat} (h : ∀ c ∈ m, c.1 ≠ a) (v : Byte) (b : Nat) :
    Memory.load (Memory.insertCell m a v) b = if b = a then v else Memory.load m b := by
  induction m with
  | nil => simp [Memory.insertCell, Memory.load, eq_comm]
  | cons c m ih =>
    obtain ⟨k, w⟩ := c
    have hk : k ≠ a := h (k, w) (by simp)
    rw [Memory.insertCell]
    split
    · simp [Memory.load, eq_comm]
    · rw [Memory.load, ih fun c hc => h c (by simp [hc]), Memory.load]
      by_cases hb : b = a
      · subst hb
        simp [hk]
      · simp [hb]

/-- Everything a store does to reading, in every memory, canonical or not. -/
theorem Memory.load_store (m : Memory) (a b : Nat) (v : Byte) :
    Memory.load (Memory.store m a v) b = if b = a then v else Memory.load m b := by
  unfold Memory.store
  have hclear : ∀ c ∈ m.filter (fun c => c.1 != a), c.1 ≠ a := fun c hc => by simpa using (List.mem_filter.mp hc).2
  by_cases hv : v = unlistedByte
  · subst hv
    simpa using Memory.load_filter m a b
  · simp only [hv, if_false]
    rw [Memory.load_insertCell hclear, Memory.load_filter]
    by_cases hb : b = a <;> simp [hb]

theorem Memory.mem_insertCell {m : Memory} {a : Nat} {v : Byte} {c : Host.Cell}
    (hc : c ∈ Memory.insertCell m a v) : c = (a, v) ∨ c ∈ m := by
  induction m with
  | nil => simpa [Memory.insertCell] using hc
  | cons d m ih =>
    obtain ⟨k, w⟩ := d
    rw [Memory.insertCell] at hc
    split at hc
    · simpa using hc
    · rcases List.mem_cons.mp hc with h | h
      · exact .inr (by simp [h])
      · exact (ih h).imp id fun h => by simp [h]

theorem Memory.insertCell_pairwise {m : Memory} {a : Nat} (v : Byte)
    (hm : m.Pairwise (fun c d => c.1 < d.1)) (h : ∀ c ∈ m, c.1 ≠ a) :
    (Memory.insertCell m a v).Pairwise (fun c d => c.1 < d.1) := by
  induction m with
  | nil => simp [Memory.insertCell]
  | cons d m ih =>
    obtain ⟨k, w⟩ := d
    have hka : k ≠ a := h (k, w) (by simp)
    have hm' := List.pairwise_cons.mp hm
    rw [Memory.insertCell]
    split
    · rename_i hak
      refine List.pairwise_cons.mpr ⟨fun c hc => ?_, hm⟩
      rcases List.mem_cons.mp hc with rfl | hc
      · exact hak
      · exact Nat.lt_trans hak (hm'.1 c hc)
    · rename_i hak
      refine List.pairwise_cons.mpr ⟨fun c hc => ?_, ih hm'.2 fun c hc => h c (by simp [hc])⟩
      rcases Memory.mem_insertCell hc with rfl | hc
      · exact Nat.lt_of_le_of_ne (Nat.le_of_not_lt hak) hka
      · exact hm'.1 c hc

/-- The one operation that changes a memory keeps the canonical form. -/
theorem Memory.store_wf {m : Memory} (hm : Memory.wf m) {a : Nat} (ha : a < 65536) (v : Byte) :
    Memory.wf (Memory.store m a v) := by
  unfold Memory.store
  have hclear : ∀ c ∈ m.filter (fun c => c.1 != a), c.1 ≠ a := fun c hc => by simpa using (List.mem_filter.mp hc).2
  have hwf : Memory.wf (m.filter (fun c => c.1 != a)) :=
    ⟨hm.1.filter _, fun c hc => hm.2 c (List.mem_filter.mp hc).1⟩
  by_cases hv : v = unlistedByte
  · simpa [hv] using hwf
  · simp only [hv, if_false]
    refine ⟨Memory.insertCell_pairwise v hwf.1 hclear, fun c hc => ?_⟩
    rcases Memory.mem_insertCell hc with rfl | hc
    · exact ⟨ha, hv⟩
    · exact hwf.2 c hc

theorem Memory.nil_wf : Memory.wf [] := by simp [Memory.wf]

end Sys2Proof.Machine
end

