-- ==== Sys2Proof/Laws/State.lean ====
section
/-! SUPPORT. What each update of a state leaves in each field, so that no later proof unfolds a record update. -/

namespace Sys2Proof.Machine

@[simp] theorem State.setA_a (s : State) (u : Byte) : (s.setA u).a = u := rfl
@[simp] theorem State.setA_x (s : State) (u : Byte) : (s.setA u).x = s.x := rfl
@[simp] theorem State.setA_y (s : State) (u : Byte) : (s.setA u).y = s.y := rfl
@[simp] theorem State.setA_sp (s : State) (u : Byte) : (s.setA u).sp = s.sp := rfl
@[simp] theorem State.setA_pc (s : State) (u : Byte) : (s.setA u).pc = s.pc := rfl
@[simp] theorem State.setA_c (s : State) (u : Byte) : (s.setA u).c = s.c := rfl
@[simp] theorem State.setA_z (s : State) (u : Byte) : (s.setA u).z = s.z := rfl
@[simp] theorem State.setA_i (s : State) (u : Byte) : (s.setA u).i = s.i := rfl
@[simp] theorem State.setA_d (s : State) (u : Byte) : (s.setA u).d = s.d := rfl
@[simp] theorem State.setA_b (s : State) (u : Byte) : (s.setA u).b = s.b := rfl
@[simp] theorem State.setA_v (s : State) (u : Byte) : (s.setA u).v = s.v := rfl
@[simp] theorem State.setA_n (s : State) (u : Byte) : (s.setA u).n = s.n := rfl
@[simp] theorem State.setA_mem (s : State) (u : Byte) : (s.setA u).mem = s.mem := rfl
@[simp] theorem State.setA_result (s : State) (u : Byte) : (s.setA u).result = s.result := rfl
@[simp] theorem State.setA_config (s : State) (u : Byte) : (s.setA u).config = s.config := rfl
@[simp] theorem State.setA_opcode (s : State) (u : Byte) : (s.setA u).opcode = s.opcode := rfl

@[simp] theorem State.setX_a (s : State) (u : Byte) : (s.setX u).a = s.a := rfl
@[simp] theorem State.setX_x (s : State) (u : Byte) : (s.setX u).x = u := rfl
@[simp] theorem State.setX_y (s : State) (u : Byte) : (s.setX u).y = s.y := rfl
@[simp] theorem State.setX_sp (s : State) (u : Byte) : (s.setX u).sp = s.sp := rfl
@[simp] theorem State.setX_pc (s : State) (u : Byte) : (s.setX u).pc = s.pc := rfl
@[simp] theorem State.setX_c (s : State) (u : Byte) : (s.setX u).c = s.c := rfl
@[simp] theorem State.setX_z (s : State) (u : Byte) : (s.setX u).z = s.z := rfl
@[simp] theorem State.setX_i (s : State) (u : Byte) : (s.setX u).i = s.i := rfl
@[simp] theorem State.setX_d (s : State) (u : Byte) : (s.setX u).d = s.d := rfl
@[simp] theorem State.setX_b (s : State) (u : Byte) : (s.setX u).b = s.b := rfl
@[simp] theorem State.setX_v (s : State) (u : Byte) : (s.setX u).v = s.v := rfl
@[simp] theorem State.setX_n (s : State) (u : Byte) : (s.setX u).n = s.n := rfl
@[simp] theorem State.setX_mem (s : State) (u : Byte) : (s.setX u).mem = s.mem := rfl
@[simp] theorem State.setX_result (s : State) (u : Byte) : (s.setX u).result = s.result := rfl
@[simp] theorem State.setX_config (s : State) (u : Byte) : (s.setX u).config = s.config := rfl
@[simp] theorem State.setX_opcode (s : State) (u : Byte) : (s.setX u).opcode = s.opcode := rfl

@[simp] theorem State.setY_a (s : State) (u : Byte) : (s.setY u).a = s.a := rfl
@[simp] theorem State.setY_x (s : State) (u : Byte) : (s.setY u).x = s.x := rfl
@[simp] theorem State.setY_y (s : State) (u : Byte) : (s.setY u).y = u := rfl
@[simp] theorem State.setY_sp (s : State) (u : Byte) : (s.setY u).sp = s.sp := rfl
@[simp] theorem State.setY_pc (s : State) (u : Byte) : (s.setY u).pc = s.pc := rfl
@[simp] theorem State.setY_c (s : State) (u : Byte) : (s.setY u).c = s.c := rfl
@[simp] theorem State.setY_z (s : State) (u : Byte) : (s.setY u).z = s.z := rfl
@[simp] theorem State.setY_i (s : State) (u : Byte) : (s.setY u).i = s.i := rfl
@[simp] theorem State.setY_d (s : State) (u : Byte) : (s.setY u).d = s.d := rfl
@[simp] theorem State.setY_b (s : State) (u : Byte) : (s.setY u).b = s.b := rfl
@[simp] theorem State.setY_v (s : State) (u : Byte) : (s.setY u).v = s.v := rfl
@[simp] theorem State.setY_n (s : State) (u : Byte) : (s.setY u).n = s.n := rfl
@[simp] theorem State.setY_mem (s : State) (u : Byte) : (s.setY u).mem = s.mem := rfl
@[simp] theorem State.setY_result (s : State) (u : Byte) : (s.setY u).result = s.result := rfl
@[simp] theorem State.setY_config (s : State) (u : Byte) : (s.setY u).config = s.config := rfl
@[simp] theorem State.setY_opcode (s : State) (u : Byte) : (s.setY u).opcode = s.opcode := rfl

@[simp] theorem State.setSp_a (s : State) (u : Byte) : (s.setSp u).a = s.a := rfl
@[simp] theorem State.setSp_x (s : State) (u : Byte) : (s.setSp u).x = s.x := rfl
@[simp] theorem State.setSp_y (s : State) (u : Byte) : (s.setSp u).y = s.y := rfl
@[simp] theorem State.setSp_sp (s : State) (u : Byte) : (s.setSp u).sp = u := rfl
@[simp] theorem State.setSp_pc (s : State) (u : Byte) : (s.setSp u).pc = s.pc := rfl
@[simp] theorem State.setSp_c (s : State) (u : Byte) : (s.setSp u).c = s.c := rfl
@[simp] theorem State.setSp_z (s : State) (u : Byte) : (s.setSp u).z = s.z := rfl
@[simp] theorem State.setSp_i (s : State) (u : Byte) : (s.setSp u).i = s.i := rfl
@[simp] theorem State.setSp_d (s : State) (u : Byte) : (s.setSp u).d = s.d := rfl
@[simp] theorem State.setSp_b (s : State) (u : Byte) : (s.setSp u).b = s.b := rfl
@[simp] theorem State.setSp_v (s : State) (u : Byte) : (s.setSp u).v = s.v := rfl
@[simp] theorem State.setSp_n (s : State) (u : Byte) : (s.setSp u).n = s.n := rfl
@[simp] theorem State.setSp_mem (s : State) (u : Byte) : (s.setSp u).mem = s.mem := rfl
@[simp] theorem State.setSp_result (s : State) (u : Byte) : (s.setSp u).result = s.result := rfl
@[simp] theorem State.setSp_config (s : State) (u : Byte) : (s.setSp u).config = s.config := rfl
@[simp] theorem State.setSp_opcode (s : State) (u : Byte) : (s.setSp u).opcode = s.opcode := rfl

@[simp] theorem State.setPc_a (s : State) (u : Word) : (s.setPc u).a = s.a := rfl
@[simp] theorem State.setPc_x (s : State) (u : Word) : (s.setPc u).x = s.x := rfl
@[simp] theorem State.setPc_y (s : State) (u : Word) : (s.setPc u).y = s.y := rfl
@[simp] theorem State.setPc_sp (s : State) (u : Word) : (s.setPc u).sp = s.sp := rfl
@[simp] theorem State.setPc_pc (s : State) (u : Word) : (s.setPc u).pc = u := rfl
@[simp] theorem State.setPc_c (s : State) (u : Word) : (s.setPc u).c = s.c := rfl
@[simp] theorem State.setPc_z (s : State) (u : Word) : (s.setPc u).z = s.z := rfl
@[simp] theorem State.setPc_i (s : State) (u : Word) : (s.setPc u).i = s.i := rfl
@[simp] theorem State.setPc_d (s : State) (u : Word) : (s.setPc u).d = s.d := rfl
@[simp] theorem State.setPc_b (s : State) (u : Word) : (s.setPc u).b = s.b := rfl
@[simp] theorem State.setPc_v (s : State) (u : Word) : (s.setPc u).v = s.v := rfl
@[simp] theorem State.setPc_n (s : State) (u : Word) : (s.setPc u).n = s.n := rfl
@[simp] theorem State.setPc_mem (s : State) (u : Word) : (s.setPc u).mem = s.mem := rfl
@[simp] theorem State.setPc_result (s : State) (u : Word) : (s.setPc u).result = s.result := rfl
@[simp] theorem State.setPc_config (s : State) (u : Word) : (s.setPc u).config = s.config := rfl
@[simp] theorem State.setPc_opcode (s : State) (u : Word) : (s.setPc u).opcode = s.opcode := rfl

@[simp] theorem State.setMem_a (s : State) (u : Memory) : (s.setMem u).a = s.a := rfl
@[simp] theorem State.setMem_x (s : State) (u : Memory) : (s.setMem u).x = s.x := rfl
@[simp] theorem State.setMem_y (s : State) (u : Memory) : (s.setMem u).y = s.y := rfl
@[simp] theorem State.setMem_sp (s : State) (u : Memory) : (s.setMem u).sp = s.sp := rfl
@[simp] theorem State.setMem_pc (s : State) (u : Memory) : (s.setMem u).pc = s.pc := rfl
@[simp] theorem State.setMem_c (s : State) (u : Memory) : (s.setMem u).c = s.c := rfl
@[simp] theorem State.setMem_z (s : State) (u : Memory) : (s.setMem u).z = s.z := rfl
@[simp] theorem State.setMem_i (s : State) (u : Memory) : (s.setMem u).i = s.i := rfl
@[simp] theorem State.setMem_d (s : State) (u : Memory) : (s.setMem u).d = s.d := rfl
@[simp] theorem State.setMem_b (s : State) (u : Memory) : (s.setMem u).b = s.b := rfl
@[simp] theorem State.setMem_v (s : State) (u : Memory) : (s.setMem u).v = s.v := rfl
@[simp] theorem State.setMem_n (s : State) (u : Memory) : (s.setMem u).n = s.n := rfl
@[simp] theorem State.setMem_mem (s : State) (u : Memory) : (s.setMem u).mem = u := rfl
@[simp] theorem State.setMem_result (s : State) (u : Memory) : (s.setMem u).result = s.result := rfl
@[simp] theorem State.setMem_config (s : State) (u : Memory) : (s.setMem u).config = s.config := rfl
@[simp] theorem State.setMem_opcode (s : State) (u : Memory) : (s.setMem u).opcode = s.opcode := rfl

@[simp] theorem State.setResult_a (s : State) (u : Option StepResult) : (s.setResult u).a = s.a := rfl
@[simp] theorem State.setResult_x (s : State) (u : Option StepResult) : (s.setResult u).x = s.x := rfl
@[simp] theorem State.setResult_y (s : State) (u : Option StepResult) : (s.setResult u).y = s.y := rfl
@[simp] theorem State.setResult_sp (s : State) (u : Option StepResult) : (s.setResult u).sp = s.sp := rfl
@[simp] theorem State.setResult_pc (s : State) (u : Option StepResult) : (s.setResult u).pc = s.pc := rfl
@[simp] theorem State.setResult_c (s : State) (u : Option StepResult) : (s.setResult u).c = s.c := rfl
@[simp] theorem State.setResult_z (s : State) (u : Option StepResult) : (s.setResult u).z = s.z := rfl
@[simp] theorem State.setResult_i (s : State) (u : Option StepResult) : (s.setResult u).i = s.i := rfl
@[simp] theorem State.setResult_d (s : State) (u : Option StepResult) : (s.setResult u).d = s.d := rfl
@[simp] theorem State.setResult_b (s : State) (u : Option StepResult) : (s.setResult u).b = s.b := rfl
@[simp] theorem State.setResult_v (s : State) (u : Option StepResult) : (s.setResult u).v = s.v := rfl
@[simp] theorem State.setResult_n (s : State) (u : Option StepResult) : (s.setResult u).n = s.n := rfl
@[simp] theorem State.setResult_mem (s : State) (u : Option StepResult) : (s.setResult u).mem = s.mem := rfl
@[simp] theorem State.setResult_result (s : State) (u : Option StepResult) : (s.setResult u).result = u := rfl
@[simp] theorem State.setResult_config (s : State) (u : Option StepResult) : (s.setResult u).config = s.config := rfl
@[simp] theorem State.setResult_opcode (s : State) (u : Option StepResult) : (s.setResult u).opcode = s.opcode := rfl

@[simp] theorem State.setZN_a (s : State) (u : Byte) : (s.setZN u).a = s.a := rfl
@[simp] theorem State.setZN_x (s : State) (u : Byte) : (s.setZN u).x = s.x := rfl
@[simp] theorem State.setZN_y (s : State) (u : Byte) : (s.setZN u).y = s.y := rfl
@[simp] theorem State.setZN_sp (s : State) (u : Byte) : (s.setZN u).sp = s.sp := rfl
@[simp] theorem State.setZN_pc (s : State) (u : Byte) : (s.setZN u).pc = s.pc := rfl
@[simp] theorem State.setZN_c (s : State) (u : Byte) : (s.setZN u).c = s.c := rfl
@[simp] theorem State.setZN_z (s : State) (u : Byte) : (s.setZN u).z = (u == 0x00) := rfl
@[simp] theorem State.setZN_i (s : State) (u : Byte) : (s.setZN u).i = s.i := rfl
@[simp] theorem State.setZN_d (s : State) (u : Byte) : (s.setZN u).d = s.d := rfl
@[simp] theorem State.setZN_b (s : State) (u : Byte) : (s.setZN u).b = s.b := rfl
@[simp] theorem State.setZN_v (s : State) (u : Byte) : (s.setZN u).v = s.v := rfl
@[simp] theorem State.setZN_n (s : State) (u : Byte) : (s.setZN u).n = u[7] := rfl
@[simp] theorem State.setZN_mem (s : State) (u : Byte) : (s.setZN u).mem = s.mem := rfl
@[simp] theorem State.setZN_result (s : State) (u : Byte) : (s.setZN u).result = s.result := rfl
@[simp] theorem State.setZN_config (s : State) (u : Byte) : (s.setZN u).config = s.config := rfl
@[simp] theorem State.setZN_opcode (s : State) (u : Byte) : (s.setZN u).opcode = s.opcode := rfl

@[simp] theorem State.setStatus_a (s : State) (u : Byte) : (s.setStatus u).a = s.a := rfl
@[simp] theorem State.setStatus_x (s : State) (u : Byte) : (s.setStatus u).x = s.x := rfl
@[simp] theorem State.setStatus_y (s : State) (u : Byte) : (s.setStatus u).y = s.y := rfl
@[simp] theorem State.setStatus_sp (s : State) (u : Byte) : (s.setStatus u).sp = s.sp := rfl
@[simp] theorem State.setStatus_pc (s : State) (u : Byte) : (s.setStatus u).pc = s.pc := rfl
@[simp] theorem State.setStatus_c (s : State) (u : Byte) : (s.setStatus u).c = u[0] := rfl
@[simp] theorem State.setStatus_z (s : State) (u : Byte) : (s.setStatus u).z = u[1] := rfl
@[simp] theorem State.setStatus_i (s : State) (u : Byte) : (s.setStatus u).i = u[2] := rfl
@[simp] theorem State.setStatus_d (s : State) (u : Byte) : (s.setStatus u).d = u[3] := rfl
@[simp] theorem State.setStatus_b (s : State) (u : Byte) : (s.setStatus u).b = u[4] := rfl
@[simp] theorem State.setStatus_v (s : State) (u : Byte) : (s.setStatus u).v = u[6] := rfl
@[simp] theorem State.setStatus_n (s : State) (u : Byte) : (s.setStatus u).n = u[7] := rfl
@[simp] theorem State.setStatus_mem (s : State) (u : Byte) : (s.setStatus u).mem = s.mem := rfl
@[simp] theorem State.setStatus_result (s : State) (u : Byte) : (s.setStatus u).result = s.result := rfl
@[simp] theorem State.setStatus_config (s : State) (u : Byte) : (s.setStatus u).config = s.config := rfl
@[simp] theorem State.setStatus_opcode (s : State) (u : Byte) : (s.setStatus u).opcode = s.opcode := rfl

@[simp] theorem State.setOpcode_a (s : State) (u : Byte) : (s.setOpcode u).a = s.a := rfl
@[simp] theorem State.setOpcode_x (s : State) (u : Byte) : (s.setOpcode u).x = s.x := rfl
@[simp] theorem State.setOpcode_y (s : State) (u : Byte) : (s.setOpcode u).y = s.y := rfl
@[simp] theorem State.setOpcode_sp (s : State) (u : Byte) : (s.setOpcode u).sp = s.sp := rfl
@[simp] theorem State.setOpcode_pc (s : State) (u : Byte) : (s.setOpcode u).pc = s.pc := rfl
@[simp] theorem State.setOpcode_c (s : State) (u : Byte) : (s.setOpcode u).c = s.c := rfl
@[simp] theorem State.setOpcode_z (s : State) (u : Byte) : (s.setOpcode u).z = s.z := rfl
@[simp] theorem State.setOpcode_i (s : State) (u : Byte) : (s.setOpcode u).i = s.i := rfl
@[simp] theorem State.setOpcode_d (s : State) (u : Byte) : (s.setOpcode u).d = s.d := rfl
@[simp] theorem State.setOpcode_b (s : State) (u : Byte) : (s.setOpcode u).b = s.b := rfl
@[simp] theorem State.setOpcode_v (s : State) (u : Byte) : (s.setOpcode u).v = s.v := rfl
@[simp] theorem State.setOpcode_n (s : State) (u : Byte) : (s.setOpcode u).n = s.n := rfl
@[simp] theorem State.setOpcode_mem (s : State) (u : Byte) : (s.setOpcode u).mem = s.mem := rfl
@[simp] theorem State.setOpcode_result (s : State) (u : Byte) : (s.setOpcode u).result = s.result := rfl
@[simp] theorem State.setOpcode_config (s : State) (u : Byte) : (s.setOpcode u).config = s.config := rfl
@[simp] theorem State.setOpcode_opcode (s : State) (u : Byte) : (s.setOpcode u).opcode = u := rfl

@[simp] theorem writeByte_a (s : State) (addr : Word) (u : Byte) : (writeByte s addr u).a = s.a := rfl
@[simp] theorem writeByte_x (s : State) (addr : Word) (u : Byte) : (writeByte s addr u).x = s.x := rfl
@[simp] theorem writeByte_y (s : State) (addr : Word) (u : Byte) : (writeByte s addr u).y = s.y := rfl
@[simp] theorem writeByte_sp (s : State) (addr : Word) (u : Byte) : (writeByte s addr u).sp = s.sp := rfl
@[simp] theorem writeByte_pc (s : State) (addr : Word) (u : Byte) : (writeByte s addr u).pc = s.pc := rfl
@[simp] theorem writeByte_c (s : State) (addr : Word) (u : Byte) : (writeByte s addr u).c = s.c := rfl
@[simp] theorem writeByte_z (s : State) (addr : Word) (u : Byte) : (writeByte s addr u).z = s.z := rfl
@[simp] theorem writeByte_i (s : State) (addr : Word) (u : Byte) : (writeByte s addr u).i = s.i := rfl
@[simp] theorem writeByte_d (s : State) (addr : Word) (u : Byte) : (writeByte s addr u).d = s.d := rfl
@[simp] theorem writeByte_b (s : State) (addr : Word) (u : Byte) : (writeByte s addr u).b = s.b := rfl
@[simp] theorem writeByte_v (s : State) (addr : Word) (u : Byte) : (writeByte s addr u).v = s.v := rfl
@[simp] theorem writeByte_n (s : State) (addr : Word) (u : Byte) : (writeByte s addr u).n = s.n := rfl
@[simp] theorem writeByte_mem (s : State) (addr : Word) (u : Byte) : (writeByte s addr u).mem = Memory.store s.mem addr.toNat u := rfl
@[simp] theorem writeByte_result (s : State) (addr : Word) (u : Byte) : (writeByte s addr u).result = s.result := rfl
@[simp] theorem writeByte_config (s : State) (addr : Word) (u : Byte) : (writeByte s addr u).config = s.config := rfl
@[simp] theorem writeByte_opcode (s : State) (addr : Word) (u : Byte) : (writeByte s addr u).opcode = s.opcode := rfl

end Sys2Proof.Machine
end

