-- ==== Sys2Proof/Laws/Ops.lean ====
section
/-! SUPPORT. What each shared operation on memory, the stack and the fetch primitives can do. -/

namespace Sys2Proof.Machine

/-- A read sees nothing of a state but its memory. -/
theorem readByte_of_mem {s t : State} (h : s.mem = t.mem) (addr : Word) : readByte s addr = readByte t addr := by
  simp only [readByte, h]

@[simp] theorem readByte_setA (s : State) (u : Byte) (addr : Word) : readByte (s.setA u) addr = readByte s addr := rfl
@[simp] theorem readByte_setX (s : State) (u : Byte) (addr : Word) : readByte (s.setX u) addr = readByte s addr := rfl
@[simp] theorem readByte_setY (s : State) (u : Byte) (addr : Word) : readByte (s.setY u) addr = readByte s addr := rfl
@[simp] theorem readByte_setSp (s : State) (u : Byte) (addr : Word) : readByte (s.setSp u) addr = readByte s addr := rfl
@[simp] theorem readByte_setPc (s : State) (u : Word) (addr : Word) : readByte (s.setPc u) addr = readByte s addr := rfl
@[simp] theorem readByte_setOpcode (s : State) (u : Byte) (addr : Word) :
    readByte (s.setOpcode u) addr = readByte s addr := rfl
@[simp] theorem readByte_setZN (s : State) (u : Byte) (addr : Word) : readByte (s.setZN u) addr = readByte s addr := rfl
@[simp] theorem readByte_setStatus (s : State) (u : Byte) (addr : Word) :
    readByte (s.setStatus u) addr = readByte s addr := rfl
@[simp] theorem readByte_setResult (s : State) (r : Option StepResult) (addr : Word) :
    readByte (s.setResult r) addr = readByte s addr := rfl

/-- Everything `writeByte` does to a later read. -/
theorem readByte_writeByte_eq_ite (s : State) (addr other : Word) (u : Byte) :
    readByte (writeByte s addr u) other = if other = addr then u else readByte s other := by
  simp only [readByte, writeByte_mem, Memory.load_store, BitVec.toNat_inj]

theorem writeByte_wf {s : State} (h : Memory.wf s.mem) (addr : Word) (u : Byte) : Memory.wf (writeByte s addr u).mem :=
  Memory.store_wf h addr.isLt u

theorem writeWord_wf {s : State} (h : Memory.wf s.mem) (addr w : Word) : Memory.wf (writeWord s addr w).mem :=
  writeByte_wf (writeByte_wf h _ _) _ _

theorem stackPush_wf {s : State} (h : Memory.wf s.mem) (u : Byte) : Memory.wf (stackPush s u).mem :=
  writeByte_wf h _ _

/-- Everything `stackPush` does: one byte at the old stack address, and SP one lower. -/
theorem stackPush_eq (s : State) (u : Byte) :
    stackPush s u = { s with mem := Memory.store s.mem (stackAddress s.sp).toNat u, sp := s.sp - 1 } := rfl

/-- Everything `stackPop` does: SP one higher, and the byte at the new stack address. -/
theorem stackPop_eq (s : State) :
    stackPop s = (readByte s (stackAddress (s.sp + 1)), { s with sp := s.sp + 1 }) := rfl

/-- An address computation reads X, Y, the memory and the parameters, nothing else. -/
theorem resolve_congr {s t : State} (hx : s.x = t.x) (hy : s.y = t.y) (hm : s.mem = t.mem)
    (hc : s.config = t.config) (m : Address) : resolve m s = resolve m t := by
  cases m <;> simp only [resolve, zpReadWord, readByte, hx, hy, hm, hc]

theorem operandByte_congr {s t : State} (hx : s.x = t.x) (hy : s.y = t.y) (hm : s.mem = t.mem)
    (hc : s.config = t.config) (o : Operand) : operandByte o s = operandByte o t := by
  cases o <;> simp only [operandByte, resolve_congr hx hy hm hc, readByte, hm]

theorem operandCrossed_congr {s t : State} (hx : s.x = t.x) (hy : s.y = t.y) (hm : s.mem = t.mem)
    (hc : s.config = t.config) (o : Operand) : operandCrossed o s = operandCrossed o t := by
  cases o <;> simp only [operandCrossed, resolve_congr hx hy hm hc]

end Sys2Proof.Machine
end

