-- ==== Sys2Proof/Laws/Exec.lean ====
section
/-! SUPPORT. exec and step taken apart once: an instruction is a read, a write or an implied operation (40_dispatch_
addressing.md R65) with the effect of its mnemonic, and a step fetches and then executes. -/

namespace Sys2Proof.Machine

/-- What a read operation does with its operand byte; the other operations do nothing with one. -/
def readEffect (op : Operation) (s : State) (v : Byte) : State :=
  match op with
  | .lda => (s.setA v).setZN v
  | .ldx => (s.setX v).setZN v
  | .ldy => (s.setY v).setZN v
  | .and => (s.setA (s.a &&& v)).setZN (s.a &&& v)
  | .eor => (s.setA (s.a ^^^ v)).setZN (s.a ^^^ v)
  | .ora => (s.setA (s.a ||| v)).setZN (s.a ||| v)
  | .sta | .stx | .sty | .tax | .tay | .txa | .tya | .tsx | .txs | .pha | .php | .pla | .plp => s

/-- The register a write operation stores; `none` for the other operations. -/
def storedRegister (op : Operation) (s : State) : Option Byte :=
  match op with
  | .sta => some s.a
  | .stx => some s.x
  | .sty => some s.y
  | .lda | .ldx | .ldy | .and | .eor | .ora
  | .tax | .tay | .txa | .tya | .tsx | .txs | .pha | .php | .pla | .plp => none

/-- What an implied operation does; the other operations do nothing here. -/
def impliedEffect (op : Operation) (s : State) : State :=
  match op with
  | .tax => (s.setX s.a).setZN s.a
  | .tay => (s.setY s.a).setZN s.a
  | .txa => (s.setA s.x).setZN s.x
  | .tya => (s.setA s.y).setZN s.y
  | .tsx => (s.setX s.sp).setZN s.sp
  | .txs => s.setSp s.x
  | .pha => stackPush s s.a
  | .php => stackPush s (getStatus s)
  | .pla => pullA s
  | .plp => pullStatus s
  | .lda | .ldx | .ldy | .sta | .stx | .sty | .and | .eor | .ora => s

/-- The three shapes `exec` has (R65); every fact about all instructions is three cases of this. -/
theorem exec_shape (i : Instr) (s : State) :
    (∃ o, i.operand = some o ∧ i.operation ∈ [.lda, .ldx, .ldy, .and, .eor, .ora] ∧
      exec i s = readOperation o (readEffect i.operation) s) ∨
    (∃ m u, i.operand = some (.memory m) ∧ i.operation ∈ [.sta, .stx, .sty] ∧
      storedRegister i.operation s = some u ∧ exec i s = writeOperation m u s) ∨
    (i.operand = none ∧ i.operation ∈ [.tax, .tay, .txa, .tya, .tsx, .txs, .pha, .php, .pla, .plp] ∧
      exec i s = impliedOperation (impliedEffect i.operation) s) := by
  cases i <;>
    first
      | exact .inl ⟨_, rfl, by simp [Instr.operation], rfl⟩
      | exact .inr (.inl ⟨_, _, rfl, by simp [Instr.operation], rfl, rfl⟩)
      | exact .inr (.inr ⟨rfl, by simp [Instr.operation], rfl⟩)

/-- A read operation pays one cycle for a crossing, whatever the parameters (R81). -/
theorem penalty_read (cfg : Config) (crossed : Bool) : penalty cfg crossed false = if crossed then 1 else 0 := by
  cases crossed <;> rfl

/-- A store pays it if `PENALTY_ON_STORES` (R81). -/
theorem penalty_store (cfg : Config) (crossed : Bool) :
    penalty cfg crossed true = if crossed && cfg.penaltyOnStores then 1 else 0 := by
  cases crossed <;> cases h : cfg.penaltyOnStores <;> simp [penalty, h]

/-- Nothing is paid without a crossing (R81). -/
theorem penalty_not_crossed (cfg : Config) (isStore : Bool) : penalty cfg false isStore = 0 := rfl

/-- A read operation answers this one next state. -/
theorem readOperation_eq (o : Operand) (act : State → Byte → State) (s : State) :
    readOperation o act s =
      .next ((act s (operandByte o s)).setResult (some (.ok (cycles s.config s.opcode (operandCrossed o s) false)))) := rfl

/-- A write operation answers this one next state. -/
theorem writeOperation_eq (m : Address) (u : Byte) (s : State) :
    writeOperation m u s =
      .next ((writeByte s (resolve m s).ea u).setResult
        (some (.ok (cycles s.config s.opcode (resolve m s).crossed true)))) := rfl

/-- An implied operation answers this one next state. -/
theorem impliedOperation_eq (act : State → State) (s : State) :
    impliedOperation act s =
      .next ((act s).setResult (some (.ok (cycles s.config s.opcode false false)))) := rfl

/-- A fetch of a byte with no entry moves PC past that byte only (R64). -/
theorem fetchInstr_unknown {s : State} (h : lookupOpcode s.config.opcodeOverrides (readByte s s.pc) = none) :
    fetchInstr s = .unknown (readByte s s.pc) ((s.setPc (s.pc + 1)).setOpcode (readByte s s.pc)) := by
  simp [fetchInstr, fetchByte, h]

/-- A fetch of a byte with an entry reads the entry's operand bytes and moves PC past them (R51, R61). -/
theorem fetchInstr_form {s : State} {form : Form}
    (h : lookupOpcode s.config.opcodeOverrides (readByte s s.pc) = some form) :
    fetchInstr s =
      match form with
      | .implied i => .instr i ((s.setPc (s.pc + 1)).setOpcode (readByte s s.pc))
      | .byte mk => .instr (mk (readByte s (s.pc + 1))) ((s.setPc (s.pc + 1 + 1)).setOpcode (readByte s s.pc))
      | .word mk => .instr (mk (readWord s (s.pc + 1))) ((s.setPc (s.pc + 1 + 2)).setOpcode (readByte s s.pc)) := by
  simp only [fetchInstr, fetchByte, State.setOpcode_config, State.setPc_config, h]
  cases form <;> rfl

/-- A fetch changes nothing but PC and the model's own record of the opcode. -/
theorem fetchInstr_instr_frame {s t : State} {i : Instr} (h : fetchInstr s = .instr i t) :
    t = (s.setPc t.pc).setOpcode (readByte s s.pc) := by
  cases hl : lookupOpcode s.config.opcodeOverrides (readByte s s.pc) with
  | none => simp [fetchInstr_unknown hl] at h
  | some form =>
    rw [fetchInstr_form hl] at h
    cases form <;> injection h with _ ht <;> subst ht <;> rfl

/-- What a step can do: execute the fetched instruction, or fault on the fetched byte. -/
theorem step_cases (s : State) :
    (∃ i t, fetchInstr s = .instr i t ∧ step s = exec i t) ∨
    (lookupOpcode s.config.opcodeOverrides (readByte s s.pc) = none ∧
      step s = raiseUnknownOpcode ((s.setPc (s.pc + 1)).setOpcode (readByte s s.pc)) (readByte s s.pc)) := by
  cases hl : lookupOpcode s.config.opcodeOverrides (readByte s s.pc) with
  | none => exact .inr ⟨rfl, by simp [step, fetchInstr_unknown hl]⟩
  | some form =>
    refine .inl ?_
    cases hf : fetchInstr s with
    | instr i t => exact ⟨i, t, rfl, by simp [step, hf]⟩
    | unknown op t =>
      rw [fetchInstr_form hl] at hf
      cases form <;> cases hf

end Sys2Proof.Machine
end

