-- ==== Sys2Proof/Laws/PerInstr.lean ====
section
/-! SUPPORT. A fact about every instruction as bytes, one lemma per constructor (30_encoding.md R51). -/

/-- The instruction is well-formed, its encoding is as long as its mode says (R51), and that is 1 to 3 bytes (R6). -/
def Sys2Proof.Laws.EncodedLength.Statement (i : Sys2Proof.Instr) : Prop :=
  i.wf = true ∧ (Sys2Proof.encode i).length = i.length ∧ 1 ≤ i.length ∧ i.length ≤ 3

namespace Sys2Proof.Laws

theorem EncodedLength.ldaImm (v : Byte) : EncodedLength.Statement (.ldaImm v) :=
  ⟨rfl, rfl, Nat.le_of_ble_eq_true rfl, Nat.le_of_ble_eq_true rfl⟩
theorem EncodedLength.ldaZp (z : Byte) : EncodedLength.Statement (.ldaZp z) :=
  ⟨rfl, rfl, Nat.le_of_ble_eq_true rfl, Nat.le_of_ble_eq_true rfl⟩
theorem EncodedLength.ldaZpX (z : Byte) : EncodedLength.Statement (.ldaZpX z) :=
  ⟨rfl, rfl, Nat.le_of_ble_eq_true rfl, Nat.le_of_ble_eq_true rfl⟩
theorem EncodedLength.ldaAbs (w : Word) : EncodedLength.Statement (.ldaAbs w) :=
  ⟨rfl, rfl, Nat.le_of_ble_eq_true rfl, Nat.le_of_ble_eq_true rfl⟩
theorem EncodedLength.ldaAbsX (w : Word) : EncodedLength.Statement (.ldaAbsX w) :=
  ⟨rfl, rfl, Nat.le_of_ble_eq_true rfl, Nat.le_of_ble_eq_true rfl⟩
theorem EncodedLength.ldaAbsY (w : Word) : EncodedLength.Statement (.ldaAbsY w) :=
  ⟨rfl, rfl, Nat.le_of_ble_eq_true rfl, Nat.le_of_ble_eq_true rfl⟩
theorem EncodedLength.ldaIndX (z : Byte) : EncodedLength.Statement (.ldaIndX z) :=
  ⟨rfl, rfl, Nat.le_of_ble_eq_true rfl, Nat.le_of_ble_eq_true rfl⟩
theorem EncodedLength.ldaIndY (z : Byte) : EncodedLength.Statement (.ldaIndY z) :=
  ⟨rfl, rfl, Nat.le_of_ble_eq_true rfl, Nat.le_of_ble_eq_true rfl⟩
theorem EncodedLength.ldxImm (v : Byte) : EncodedLength.Statement (.ldxImm v) :=
  ⟨rfl, rfl, Nat.le_of_ble_eq_true rfl, Nat.le_of_ble_eq_true rfl⟩
theorem EncodedLength.ldxZp (z : Byte) : EncodedLength.Statement (.ldxZp z) :=
  ⟨rfl, rfl, Nat.le_of_ble_eq_true rfl, Nat.le_of_ble_eq_true rfl⟩
theorem EncodedLength.ldxZpY (z : Byte) : EncodedLength.Statement (.ldxZpY z) :=
  ⟨rfl, rfl, Nat.le_of_ble_eq_true rfl, Nat.le_of_ble_eq_true rfl⟩
theorem EncodedLength.ldxAbs (w : Word) : EncodedLength.Statement (.ldxAbs w) :=
  ⟨rfl, rfl, Nat.le_of_ble_eq_true rfl, Nat.le_of_ble_eq_true rfl⟩
theorem EncodedLength.ldxAbsY (w : Word) : EncodedLength.Statement (.ldxAbsY w) :=
  ⟨rfl, rfl, Nat.le_of_ble_eq_true rfl, Nat.le_of_ble_eq_true rfl⟩
theorem EncodedLength.ldyImm (v : Byte) : EncodedLength.Statement (.ldyImm v) :=
  ⟨rfl, rfl, Nat.le_of_ble_eq_true rfl, Nat.le_of_ble_eq_true rfl⟩
theorem EncodedLength.ldyZp (z : Byte) : EncodedLength.Statement (.ldyZp z) :=
  ⟨rfl, rfl, Nat.le_of_ble_eq_true rfl, Nat.le_of_ble_eq_true rfl⟩
theorem EncodedLength.ldyZpX (z : Byte) : EncodedLength.Statement (.ldyZpX z) :=
  ⟨rfl, rfl, Nat.le_of_ble_eq_true rfl, Nat.le_of_ble_eq_true rfl⟩
theorem EncodedLength.ldyAbs (w : Word) : EncodedLength.Statement (.ldyAbs w) :=
  ⟨rfl, rfl, Nat.le_of_ble_eq_true rfl, Nat.le_of_ble_eq_true rfl⟩
theorem EncodedLength.ldyAbsX (w : Word) : EncodedLength.Statement (.ldyAbsX w) :=
  ⟨rfl, rfl, Nat.le_of_ble_eq_true rfl, Nat.le_of_ble_eq_true rfl⟩
theorem EncodedLength.staZp (z : Byte) : EncodedLength.Statement (.staZp z) :=
  ⟨rfl, rfl, Nat.le_of_ble_eq_true rfl, Nat.le_of_ble_eq_true rfl⟩
theorem EncodedLength.staZpX (z : Byte) : EncodedLength.Statement (.staZpX z) :=
  ⟨rfl, rfl, Nat.le_of_ble_eq_true rfl, Nat.le_of_ble_eq_true rfl⟩
theorem EncodedLength.staAbs (w : Word) : EncodedLength.Statement (.staAbs w) :=
  ⟨rfl, rfl, Nat.le_of_ble_eq_true rfl, Nat.le_of_ble_eq_true rfl⟩
theorem EncodedLength.staAbsX (w : Word) : EncodedLength.Statement (.staAbsX w) :=
  ⟨rfl, rfl, Nat.le_of_ble_eq_true rfl, Nat.le_of_ble_eq_true rfl⟩
theorem EncodedLength.staAbsY (w : Word) : EncodedLength.Statement (.staAbsY w) :=
  ⟨rfl, rfl, Nat.le_of_ble_eq_true rfl, Nat.le_of_ble_eq_true rfl⟩
theorem EncodedLength.staIndX (z : Byte) : EncodedLength.Statement (.staIndX z) :=
  ⟨rfl, rfl, Nat.le_of_ble_eq_true rfl, Nat.le_of_ble_eq_true rfl⟩
theorem EncodedLength.staIndY (z : Byte) : EncodedLength.Statement (.staIndY z) :=
  ⟨rfl, rfl, Nat.le_of_ble_eq_true rfl, Nat.le_of_ble_eq_true rfl⟩
theorem EncodedLength.stxZp (z : Byte) : EncodedLength.Statement (.stxZp z) :=
  ⟨rfl, rfl, Nat.le_of_ble_eq_true rfl, Nat.le_of_ble_eq_true rfl⟩
theorem EncodedLength.stxZpY (z : Byte) : EncodedLength.Statement (.stxZpY z) :=
  ⟨rfl, rfl, Nat.le_of_ble_eq_true rfl, Nat.le_of_ble_eq_true rfl⟩
theorem EncodedLength.stxAbs (w : Word) : EncodedLength.Statement (.stxAbs w) :=
  ⟨rfl, rfl, Nat.le_of_ble_eq_true rfl, Nat.le_of_ble_eq_true rfl⟩
theorem EncodedLength.styZp (z : Byte) : EncodedLength.Statement (.styZp z) :=
  ⟨rfl, rfl, Nat.le_of_ble_eq_true rfl, Nat.le_of_ble_eq_true rfl⟩
theorem EncodedLength.styZpX (z : Byte) : EncodedLength.Statement (.styZpX z) :=
  ⟨rfl, rfl, Nat.le_of_ble_eq_true rfl, Nat.le_of_ble_eq_true rfl⟩
theorem EncodedLength.styAbs (w : Word) : EncodedLength.Statement (.styAbs w) :=
  ⟨rfl, rfl, Nat.le_of_ble_eq_true rfl, Nat.le_of_ble_eq_true rfl⟩
theorem EncodedLength.tax : EncodedLength.Statement (.tax) :=
  ⟨rfl, rfl, Nat.le_of_ble_eq_true rfl, Nat.le_of_ble_eq_true rfl⟩
theorem EncodedLength.tay : EncodedLength.Statement (.tay) :=
  ⟨rfl, rfl, Nat.le_of_ble_eq_true rfl, Nat.le_of_ble_eq_true rfl⟩
theorem EncodedLength.txa : EncodedLength.Statement (.txa) :=
  ⟨rfl, rfl, Nat.le_of_ble_eq_true rfl, Nat.le_of_ble_eq_true rfl⟩
theorem EncodedLength.tya : EncodedLength.Statement (.tya) :=
  ⟨rfl, rfl, Nat.le_of_ble_eq_true rfl, Nat.le_of_ble_eq_true rfl⟩
theorem EncodedLength.tsx : EncodedLength.Statement (.tsx) :=
  ⟨rfl, rfl, Nat.le_of_ble_eq_true rfl, Nat.le_of_ble_eq_true rfl⟩
theorem EncodedLength.txs : EncodedLength.Statement (.txs) :=
  ⟨rfl, rfl, Nat.le_of_ble_eq_true rfl, Nat.le_of_ble_eq_true rfl⟩
theorem EncodedLength.pha : EncodedLength.Statement (.pha) :=
  ⟨rfl, rfl, Nat.le_of_ble_eq_true rfl, Nat.le_of_ble_eq_true rfl⟩
theorem EncodedLength.php : EncodedLength.Statement (.php) :=
  ⟨rfl, rfl, Nat.le_of_ble_eq_true rfl, Nat.le_of_ble_eq_true rfl⟩
theorem EncodedLength.pla : EncodedLength.Statement (.pla) :=
  ⟨rfl, rfl, Nat.le_of_ble_eq_true rfl, Nat.le_of_ble_eq_true rfl⟩
theorem EncodedLength.plp : EncodedLength.Statement (.plp) :=
  ⟨rfl, rfl, Nat.le_of_ble_eq_true rfl, Nat.le_of_ble_eq_true rfl⟩
theorem EncodedLength.andImm (v : Byte) : EncodedLength.Statement (.andImm v) :=
  ⟨rfl, rfl, Nat.le_of_ble_eq_true rfl, Nat.le_of_ble_eq_true rfl⟩
theorem EncodedLength.andZp (z : Byte) : EncodedLength.Statement (.andZp z) :=
  ⟨rfl, rfl, Nat.le_of_ble_eq_true rfl, Nat.le_of_ble_eq_true rfl⟩
theorem EncodedLength.andZpX (z : Byte) : EncodedLength.Statement (.andZpX z) :=
  ⟨rfl, rfl, Nat.le_of_ble_eq_true rfl, Nat.le_of_ble_eq_true rfl⟩
theorem EncodedLength.andAbs (w : Word) : EncodedLength.Statement (.andAbs w) :=
  ⟨rfl, rfl, Nat.le_of_ble_eq_true rfl, Nat.le_of_ble_eq_true rfl⟩
theorem EncodedLength.andAbsX (w : Word) : EncodedLength.Statement (.andAbsX w) :=
  ⟨rfl, rfl, Nat.le_of_ble_eq_true rfl, Nat.le_of_ble_eq_true rfl⟩
theorem EncodedLength.andAbsY (w : Word) : EncodedLength.Statement (.andAbsY w) :=
  ⟨rfl, rfl, Nat.le_of_ble_eq_true rfl, Nat.le_of_ble_eq_true rfl⟩
theorem EncodedLength.andIndX (z : Byte) : EncodedLength.Statement (.andIndX z) :=
  ⟨rfl, rfl, Nat.le_of_ble_eq_true rfl, Nat.le_of_ble_eq_true rfl⟩
theorem EncodedLength.andIndY (z : Byte) : EncodedLength.Statement (.andIndY z) :=
  ⟨rfl, rfl, Nat.le_of_ble_eq_true rfl, Nat.le_of_ble_eq_true rfl⟩
theorem EncodedLength.eorImm (v : Byte) : EncodedLength.Statement (.eorImm v) :=
  ⟨rfl, rfl, Nat.le_of_ble_eq_true rfl, Nat.le_of_ble_eq_true rfl⟩
theorem EncodedLength.eorZp (z : Byte) : EncodedLength.Statement (.eorZp z) :=
  ⟨rfl, rfl, Nat.le_of_ble_eq_true rfl, Nat.le_of_ble_eq_true rfl⟩
theorem EncodedLength.eorZpX (z : Byte) : EncodedLength.Statement (.eorZpX z) :=
  ⟨rfl, rfl, Nat.le_of_ble_eq_true rfl, Nat.le_of_ble_eq_true rfl⟩
theorem EncodedLength.eorAbs (w : Word) : EncodedLength.Statement (.eorAbs w) :=
  ⟨rfl, rfl, Nat.le_of_ble_eq_true rfl, Nat.le_of_ble_eq_true rfl⟩
theorem EncodedLength.eorAbsX (w : Word) : EncodedLength.Statement (.eorAbsX w) :=
  ⟨rfl, rfl, Nat.le_of_ble_eq_true rfl, Nat.le_of_ble_eq_true rfl⟩
theorem EncodedLength.eorAbsY (w : Word) : EncodedLength.Statement (.eorAbsY w) :=
  ⟨rfl, rfl, Nat.le_of_ble_eq_true rfl, Nat.le_of_ble_eq_true rfl⟩
theorem EncodedLength.eorIndX (z : Byte) : EncodedLength.Statement (.eorIndX z) :=
  ⟨rfl, rfl, Nat.le_of_ble_eq_true rfl, Nat.le_of_ble_eq_true rfl⟩
theorem EncodedLength.eorIndY (z : Byte) : EncodedLength.Statement (.eorIndY z) :=
  ⟨rfl, rfl, Nat.le_of_ble_eq_true rfl, Nat.le_of_ble_eq_true rfl⟩
theorem EncodedLength.oraImm (v : Byte) : EncodedLength.Statement (.oraImm v) :=
  ⟨rfl, rfl, Nat.le_of_ble_eq_true rfl, Nat.le_of_ble_eq_true rfl⟩
theorem EncodedLength.oraZp (z : Byte) : EncodedLength.Statement (.oraZp z) :=
  ⟨rfl, rfl, Nat.le_of_ble_eq_true rfl, Nat.le_of_ble_eq_true rfl⟩
theorem EncodedLength.oraZpX (z : Byte) : EncodedLength.Statement (.oraZpX z) :=
  ⟨rfl, rfl, Nat.le_of_ble_eq_true rfl, Nat.le_of_ble_eq_true rfl⟩
theorem EncodedLength.oraAbs (w : Word) : EncodedLength.Statement (.oraAbs w) :=
  ⟨rfl, rfl, Nat.le_of_ble_eq_true rfl, Nat.le_of_ble_eq_true rfl⟩
theorem EncodedLength.oraAbsX (w : Word) : EncodedLength.Statement (.oraAbsX w) :=
  ⟨rfl, rfl, Nat.le_of_ble_eq_true rfl, Nat.le_of_ble_eq_true rfl⟩
theorem EncodedLength.oraAbsY (w : Word) : EncodedLength.Statement (.oraAbsY w) :=
  ⟨rfl, rfl, Nat.le_of_ble_eq_true rfl, Nat.le_of_ble_eq_true rfl⟩
theorem EncodedLength.oraIndX (z : Byte) : EncodedLength.Statement (.oraIndX z) :=
  ⟨rfl, rfl, Nat.le_of_ble_eq_true rfl, Nat.le_of_ble_eq_true rfl⟩
theorem EncodedLength.oraIndY (z : Byte) : EncodedLength.Statement (.oraIndY z) :=
  ⟨rfl, rfl, Nat.le_of_ble_eq_true rfl, Nat.le_of_ble_eq_true rfl⟩

end Sys2Proof.Laws
end

