-- ==== Sys2Proof/Tests/Slice0.lean ====
section
/-! SUPPORT. The model against the spec's own worked examples (95_test_vectors.md), each on one step, and against the
encodings of R84 to R104. Expected values come from the spec or by hand from its rules. -/

namespace Sys2Proof.Tests

open Sys2Proof.Machine

/-! ## WellFormed: a pair the check refuses, for each kind of R65 -/

/-- No store has an Immediate form (R65, R87). -/
theorem test_pairing_refuses_sta_immediate : pairing .sta .immediate = false := by decide

/-- LDX has no X-indexed mode (R85). -/
theorem test_pairing_refuses_ldx_zeroPageX : pairing .ldx .zeroPageX = false := by decide

/-- An implied operation has no mode but Implied, and a read operation is not Implied (R65). -/
theorem test_pairing_refuses_implied_mismatch : pairing .tax .absolute = false ∧ pairing .lda .implied = false := by
  decide

/-- Of the 190 pairs of operation and mode exactly the 65 rows of R55 are admitted. -/
theorem test_pairing_admits_65 :
    (([.lda, .ldx, .ldy, .sta, .stx, .sty, .tax, .tay, .txa, .tya, .tsx, .txs, .pha, .php, .pla, .plp, .and, .eor,
      .ora] : List Operation).flatMap (fun op => op.modes.map (fun m => (op, m)))).length = 65 := by decide

/-! ## Decoding: every encoding line of R84 to R104 -/

/-- What a byte list decodes to, if to anything. -/
def decoded (bs : List Byte) : Option (Instr × List Byte) := (decode bs).toOption

/-- The encoding line of R84. -/
theorem test_decode_lda :
    decoded [0xA9, 0x5A] = some (.ldaImm 0x5A, []) ∧
    decoded [0xA5, 0xC4] = some (.ldaZp 0xC4, []) ∧
    decoded [0xB5, 0xC4] = some (.ldaZpX 0xC4, []) ∧
    decoded [0xAD, 0x34, 0x12] = some (.ldaAbs 0x1234, []) ∧
    decoded [0xBD, 0x34, 0x12] = some (.ldaAbsX 0x1234, []) ∧
    decoded [0xB9, 0x34, 0x12] = some (.ldaAbsY 0x1234, []) ∧
    decoded [0xA1, 0xC4] = some (.ldaIndX 0xC4, []) ∧
    decoded [0xB1, 0xC4] = some (.ldaIndY 0xC4, []) := by decide

/-- The encoding line of R85. -/
theorem test_decode_ldx :
    decoded [0xA2, 0x5A] = some (.ldxImm 0x5A, []) ∧
    decoded [0xA6, 0xC4] = some (.ldxZp 0xC4, []) ∧
    decoded [0xB6, 0xC4] = some (.ldxZpY 0xC4, []) ∧
    decoded [0xAE, 0x34, 0x12] = some (.ldxAbs 0x1234, []) ∧
    decoded [0xBE, 0x34, 0x12] = some (.ldxAbsY 0x1234, []) := by decide

/-- The encoding line of R86. -/
theorem test_decode_ldy :
    decoded [0xA0, 0x5A] = some (.ldyImm 0x5A, []) ∧
    decoded [0xA4, 0xC4] = some (.ldyZp 0xC4, []) ∧
    decoded [0xB4, 0xC4] = some (.ldyZpX 0xC4, []) ∧
    decoded [0xAC, 0x34, 0x12] = some (.ldyAbs 0x1234, []) ∧
    decoded [0xBC, 0x34, 0x12] = some (.ldyAbsX 0x1234, []) := by decide

/-- The encoding line of R87. -/
theorem test_decode_sta :
    decoded [0x85, 0xC4] = some (.staZp 0xC4, []) ∧
    decoded [0x95, 0xC4] = some (.staZpX 0xC4, []) ∧
    decoded [0x8D, 0x34, 0x12] = some (.staAbs 0x1234, []) ∧
    decoded [0x9D, 0x34, 0x12] = some (.staAbsX 0x1234, []) ∧
    decoded [0x99, 0x34, 0x12] = some (.staAbsY 0x1234, []) ∧
    decoded [0x81, 0xC4] = some (.staIndX 0xC4, []) ∧
    decoded [0x91, 0xC4] = some (.staIndY 0xC4, []) := by decide

/-- The encoding line of R88. -/
theorem test_decode_stx :
    decoded [0x86, 0xC4] = some (.stxZp 0xC4, []) ∧
    decoded [0x96, 0xC4] = some (.stxZpY 0xC4, []) ∧
    decoded [0x8E, 0x34, 0x12] = some (.stxAbs 0x1234, []) := by decide

/-- The encoding line of R89. -/
theorem test_decode_sty :
    decoded [0x84, 0xC4] = some (.styZp 0xC4, []) ∧
    decoded [0x94, 0xC4] = some (.styZpX 0xC4, []) ∧
    decoded [0x8C, 0x34, 0x12] = some (.styAbs 0x1234, []) := by decide

/-- The encoding line of R90. -/
theorem test_decode_tax :
    decoded [0xAA] = some (.tax, []) := by decide

/-- The encoding line of R91. -/
theorem test_decode_tay :
    decoded [0xA8] = some (.tay, []) := by decide

/-- The encoding line of R92. -/
theorem test_decode_txa :
    decoded [0x8A] = some (.txa, []) := by decide

/-- The encoding line of R93. -/
theorem test_decode_tya :
    decoded [0x98] = some (.tya, []) := by decide

/-- The encoding line of R94. -/
theorem test_decode_tsx :
    decoded [0xBA] = some (.tsx, []) := by decide

/-- The encoding line of R95. -/
theorem test_decode_txs :
    decoded [0x9A] = some (.txs, []) := by decide

/-- The encoding line of R98. -/
theorem test_decode_pha :
    decoded [0x48] = some (.pha, []) := by decide

/-- The encoding line of R99. -/
theorem test_decode_php :
    decoded [0x08] = some (.php, []) := by decide

/-- The encoding line of R100. -/
theorem test_decode_pla :
    decoded [0x68] = some (.pla, []) := by decide

/-- The encoding line of R101. -/
theorem test_decode_plp :
    decoded [0x28] = some (.plp, []) := by decide

/-- The encoding line of R102. -/
theorem test_decode_and :
    decoded [0x29, 0x5A] = some (.andImm 0x5A, []) ∧
    decoded [0x25, 0xC4] = some (.andZp 0xC4, []) ∧
    decoded [0x35, 0xC4] = some (.andZpX 0xC4, []) ∧
    decoded [0x2D, 0x34, 0x12] = some (.andAbs 0x1234, []) ∧
    decoded [0x3D, 0x34, 0x12] = some (.andAbsX 0x1234, []) ∧
    decoded [0x39, 0x34, 0x12] = some (.andAbsY 0x1234, []) ∧
    decoded [0x21, 0xC4] = some (.andIndX 0xC4, []) ∧
    decoded [0x31, 0xC4] = some (.andIndY 0xC4, []) := by decide

/-- The encoding line of R103. -/
theorem test_decode_eor :
    decoded [0x49, 0x5A] = some (.eorImm 0x5A, []) ∧
    decoded [0x45, 0xC4] = some (.eorZp 0xC4, []) ∧
    decoded [0x55, 0xC4] = some (.eorZpX 0xC4, []) ∧
    decoded [0x4D, 0x34, 0x12] = some (.eorAbs 0x1234, []) ∧
    decoded [0x5D, 0x34, 0x12] = some (.eorAbsX 0x1234, []) ∧
    decoded [0x59, 0x34, 0x12] = some (.eorAbsY 0x1234, []) ∧
    decoded [0x41, 0xC4] = some (.eorIndX 0xC4, []) ∧
    decoded [0x51, 0xC4] = some (.eorIndY 0xC4, []) := by decide

/-- The encoding line of R104. -/
theorem test_decode_ora :
    decoded [0x09, 0x5A] = some (.oraImm 0x5A, []) ∧
    decoded [0x05, 0xC4] = some (.oraZp 0xC4, []) ∧
    decoded [0x15, 0xC4] = some (.oraZpX 0xC4, []) ∧
    decoded [0x0D, 0x34, 0x12] = some (.oraAbs 0x1234, []) ∧
    decoded [0x1D, 0x34, 0x12] = some (.oraAbsX 0x1234, []) ∧
    decoded [0x19, 0x34, 0x12] = some (.oraAbsY 0x1234, []) ∧
    decoded [0x01, 0xC4] = some (.oraIndX 0xC4, []) ∧
    decoded [0x11, 0xC4] = some (.oraIndY 0xC4, []) := by decide

/-- Bytes with no entry (R57): BRK's and STA Immediate's places, and NOP's. -/
theorem test_decode_undefined :
    decoded [0x00] = none ∧ decoded [0x89, 0x10] = none ∧ decoded [0xEA] = none ∧ decoded [0xFF] = none := by decide

/-- The table's numbering: the second byte is bits 15..8 (LDA $1234 is 0xAD 0x34 0x12). -/
theorem test_decodeTableWord_ldaAbs :
    decodeTableWord 24 0x1234AD = some (.ldaAbs 0x1234) ∧ decodeTableWord 8 0xA9 = some (.ldaImm 0x00) := by decide

/-! ## One step: the vectors of 95_test_vectors.md -/

/-- A state after reset with PC set, data cells, and the instruction's bytes at PC (the convention of Part 2). -/
def startAt (pc : Word) (bytes : List Byte) (cells : List (Word × Byte)) : State :=
  placeBytes (cells.foldl (fun s c => writeByte s c.1 c.2) { State.reset with pc := pc }) pc bytes

/-- The next state of a step, if there is one. -/
def nextOf (s : State) : Option State :=
  match step s with
  | .next t => some t
  | .fault _ | .refused _ => none

/-- The fault of a step, if there is one. -/
def faultOf (s : State) : Option Fault :=
  match step s with
  | .fault f => some f
  | .next _ | .refused _ => none

/-- A table row runs as the first instruction after reset. -/
theorem test_withFetchWord_runs :
    (nextOf (State.reset.withFetchWord 16 0x42A9)).map (fun t => (t.a, t.pc)) = some (0x42, 0x0002) := by decide

/-! ### Load -/

/-- V-L1 of 95_test_vectors.md (41_load_store.md rule R84, 40_dispatch_addressing.md rule R67) -/
theorem test_ldaImm_VL1 :
    (nextOf ({ startAt 0x0200 [0xA9, 0x00] [] with n := true })).map (fun t => (t.result, t.pc, t.n, t.z)) =
      some (some (.ok 2), 0x0202, false, true) := by decide

/-- V-L2 of 95_test_vectors.md (rule R84) -/
theorem test_ldaImm_VL2 :
    (nextOf ({ startAt 0x0200 [0xA9, 0x80] [] with z := true })).map (fun t => (t.result, t.pc, t.a, t.n, t.z)) =
      some (some (.ok 2), 0x0202, 0x80, true, false) := by decide

/-- V-L4 of 95_test_vectors.md (rule R84, rule R68) -/
theorem test_ldaZp_VL4 :
    (nextOf (startAt 0x0200 [0xA5, 0xFF] [(0x00FF, 0x01)])).map (fun t => (t.result, t.pc, t.a)) =
      some (some (.ok 3), 0x0202, 0x01) := by decide

/-- V-L5 of 95_test_vectors.md (rule R84, rule R69) -/
theorem test_ldaZpX_VL5 :
    (nextOf ({ startAt 0x0200 [0xB5, 0xF0] [(0x0010, 0x99), (0x0110, 0x11)] with x := 0x20 })).map (fun t => (t.result, t.pc, t.a, t.n)) =
      some (some (.ok 4), 0x0202, 0x99, true) := by decide

/-- V-L6 of 95_test_vectors.md (rule R84, rule R71) -/
theorem test_ldaAbs_VL6 :
    (nextOf (startAt 0x0200 [0xAD, 0x34, 0x12] [(0x1234, 0x00)])).map (fun t => (t.result, t.pc, t.z)) =
      some (some (.ok 4), 0x0203, true) := by decide

/-- V-L7 of 95_test_vectors.md (rule R84, rule R72, rule R77, rule R81) -/
theorem test_ldaAbsX_VL7 :
    (nextOf ({ startAt 0x0200 [0xBD, 0xFF, 0xFF] [(0x0000, 0x42)] with x := 0x01 })).map (fun t => (t.result, t.pc, t.a)) =
      some (some (.ok 5), 0x0203, 0x42) := by decide

/-- V-L8 of 95_test_vectors.md (rule R84, rule R73, rule R81) -/
theorem test_ldaAbsY_VL8 :
    (nextOf ({ startAt 0x0200 [0xB9, 0xFF, 0x12] [(0x1300, 0xC0)] with y := 0x01 })).map (fun t => (t.result, t.pc, t.a, t.n)) =
      some (some (.ok 5), 0x0203, 0xC0, true) := by decide

/-- V-L9 of 95_test_vectors.md (rule R84, rule R73) -/
theorem test_ldaAbsY_VL9 :
    (nextOf ({ startAt 0x0200 [0xB9, 0x00, 0x12] [(0x12FF, 0x01)] with y := 0xFF })).map (fun t => (t.result, t.pc, t.a)) =
      some (some (.ok 4), 0x0203, 0x01) := by decide

/-- V-L11 of 95_test_vectors.md (rule R84, rule R74, rule R76) -/
theorem test_ldaIndX_VL11 :
    (nextOf ({ startAt 0x0200 [0xA1, 0xFE] [(0x00FF, 0x34), (0x0000, 0x12), (0x0100, 0x56), (0x1234, 0xAA), (0x5634, 0xBB)] with x := 0x01 })).map (fun t => (t.result, t.pc, t.a, t.n)) =
      some (some (.ok 6), 0x0202, 0xAA, true) := by decide

/-- V-L12 of 95_test_vectors.md (rule R84, rule R74, rule R76) -/
theorem test_ldaIndX_VL12 :
    (nextOf ({ startAt 0x0200 [0xA1, 0xFE] [(0x00FF, 0x34), (0x0000, 0x12), (0x0100, 0x56), (0x1234, 0xAA), (0x5634, 0xBB)] with x := 0x01, config := { defaultConfig with zpPointerWrap := .linear } })).map (fun t => (t.result, t.pc, t.a, t.n)) =
      some (some (.ok 6), 0x0202, 0xBB, true) := by decide

/-- V-L14 of 95_test_vectors.md (rule R84, rule R75, rule R81) -/
theorem test_ldaIndY_VL14 :
    (nextOf ({ startAt 0x0200 [0xB1, 0x20] [(0x0020, 0xF0), (0x0021, 0x12), (0x1310, 0x80)] with y := 0x20 })).map (fun t => (t.result, t.pc, t.a, t.n)) =
      some (some (.ok 6), 0x0202, 0x80, true) := by decide

/-- V-L15 of 95_test_vectors.md (rule R84, rule R75, rule R77) -/
theorem test_ldaIndY_VL15 :
    (nextOf ({ startAt 0x0200 [0xB1, 0x20] [(0x0020, 0xF0), (0x0021, 0xFF), (0x0010, 0x05)] with y := 0x20 })).map (fun t => (t.result, t.pc, t.a)) =
      some (some (.ok 6), 0x0202, 0x05) := by decide

/-- V-L16 of 95_test_vectors.md (rule R85) -/
theorem test_ldxImm_VL16 :
    (nextOf ({ startAt 0x0200 [0xA2, 0x00] [] with x := 0x55 })).map (fun t => (t.result, t.pc, t.x, t.z)) =
      some (some (.ok 2), 0x0202, 0x00, true) := by decide

/-- V-L17 of 95_test_vectors.md (rule R85, rule R70) -/
theorem test_ldxZpY_VL17 :
    (nextOf ({ startAt 0x0200 [0xB6, 0xFF] [(0x0001, 0x90)] with y := 0x02 })).map (fun t => (t.result, t.pc, t.x, t.n)) =
      some (some (.ok 4), 0x0202, 0x90, true) := by decide

/-- V-L18 of 95_test_vectors.md (rule R85, rule R73, rule R81) -/
theorem test_ldxAbsY_VL18 :
    (nextOf ({ startAt 0x0200 [0xBE, 0xF0, 0x20] [(0x2100, 0x01)] with y := 0x10 })).map (fun t => (t.result, t.pc, t.x)) =
      some (some (.ok 5), 0x0203, 0x01) := by decide

/-- V-L19 of 95_test_vectors.md (rule R85) -/
theorem test_ldxAbs_VL19 :
    (nextOf (startAt 0x0200 [0xAE, 0x00, 0x80] [(0x8000, 0xFF)])).map (fun t => (t.result, t.pc, t.x, t.n)) =
      some (some (.ok 4), 0x0203, 0xFF, true) := by decide

/-- V-L20 of 95_test_vectors.md (rule R85) -/
theorem test_ldxZp_VL20 :
    (nextOf (startAt 0x0200 [0xA6, 0x80] [(0x0080, 0x00)])).map (fun t => (t.result, t.pc, t.z)) =
      some (some (.ok 3), 0x0202, true) := by decide

/-- V-L21 of 95_test_vectors.md (rule R86) -/
theorem test_ldyImm_VL21 :
    (nextOf (startAt 0x0200 [0xA0, 0xFF] [])).map (fun t => (t.result, t.pc, t.y, t.n)) =
      some (some (.ok 2), 0x0202, 0xFF, true) := by decide

/-- V-L22 of 95_test_vectors.md (rule R86, rule R69) -/
theorem test_ldyZpX_VL22 :
    (nextOf ({ startAt 0x0200 [0xB4, 0x80] [(0x0000, 0x3C)] with x := 0x80 })).map (fun t => (t.result, t.pc, t.y)) =
      some (some (.ok 4), 0x0202, 0x3C) := by decide

/-- V-L23 of 95_test_vectors.md (rule R86, rule R72, rule R81) -/
theorem test_ldyAbsX_VL23 :
    (nextOf ({ startAt 0x0200 [0xBC, 0x80, 0x40] [(0x4100, 0x00)] with x := 0x80 })).map (fun t => (t.result, t.pc, t.z)) =
      some (some (.ok 5), 0x0203, true) := by decide

/-- V-L24 of 95_test_vectors.md (rule R86) -/
theorem test_ldyAbs_VL24 :
    (nextOf (startAt 0x0200 [0xAC, 0xFF, 0xFF] [(0xFFFF, 0x81)])).map (fun t => (t.result, t.pc, t.y, t.n)) =
      some (some (.ok 4), 0x0203, 0x81, true) := by decide

/-- V-L25 of 95_test_vectors.md (rule R86) -/
theorem test_ldyZp_VL25 :
    (nextOf (startAt 0x0200 [0xA4, 0x00] [(0x0000, 0x7F)])).map (fun t => (t.result, t.pc, t.y)) =
      some (some (.ok 3), 0x0202, 0x7F) := by decide

/-- V-L26 of 95_test_vectors.md (rule R84, rule R63 (operand high byte read from 0x0000; PC wraps)) -/
theorem test_ldaAbsX_VL26 :
    (nextOf ({ startAt 0xFFFE [0xBD, 0x00, 0x30] [(0x0000, 0x30), (0x3005, 0x66)] with x := 0x05 })).map (fun t => (t.result, t.pc, t.a)) =
      some (some (.ok 4), 0x0001, 0x66) := by decide

/-! ### Store -/

/-- V-S1 of 95_test_vectors.md (rule R87) -/
theorem test_staZp_VS1 :
    (nextOf ({ startAt 0x0200 [0x85, 0x10] [] with a := 0x00, n := true })).map (fun t => (t.result, t.pc, t.n)) =
      some (some (.ok 3), 0x0202, true) := by decide

/-- V-S2 of 95_test_vectors.md (rule R87, rule R69) -/
theorem test_staZpX_VS2 :
    (nextOf ({ startAt 0x0200 [0x95, 0xFF] [] with a := 0xAB, x := 0x02 })).map (fun t => (t.result, t.pc, readByte t 0x0001)) =
      some (some (.ok 4), 0x0202, 0xAB) := by decide

/-- V-S3 of 95_test_vectors.md (rule R87) -/
theorem test_staAbs_VS3 :
    (nextOf ({ startAt 0x0200 [0x8D, 0xFF, 0xFF] [] with a := 0x12 })).map (fun t => (t.result, t.pc, readByte t 0xFFFF)) =
      some (some (.ok 4), 0x0203, 0x12) := by decide

/-- V-S4 of 95_test_vectors.md (rule R87, rule R81) -/
theorem test_staAbsX_VS4 :
    (nextOf ({ startAt 0x0200 [0x9D, 0xF0, 0x12] [] with a := 0x12, x := 0x10 })).map (fun t => (t.result, t.pc, readByte t 0x1300)) =
      some (some (.ok 6), 0x0203, 0x12) := by decide

/-- V-S5 of 95_test_vectors.md (rule R87, rule R81) -/
theorem test_staAbsX_VS5 :
    (nextOf ({ startAt 0x0200 [0x9D, 0xF0, 0x12] [] with a := 0x12, x := 0x10, config := { defaultConfig with penaltyOnStores := false } })).map (fun t => (t.result, t.pc, readByte t 0x1300)) =
      some (some (.ok 5), 0x0203, 0x12) := by decide

/-- V-S7 of 95_test_vectors.md (rule R87, rule R73, rule R81) -/
theorem test_staAbsY_VS7 :
    (nextOf ({ startAt 0x0200 [0x99, 0xFF, 0xFF] [] with a := 0x34, y := 0x02 })).map (fun t => (t.result, t.pc, readByte t 0x0001)) =
      some (some (.ok 6), 0x0203, 0x34) := by decide

/-- V-S8 of 95_test_vectors.md (rule R87, rule R74, rule R76) -/
theorem test_staIndX_VS8 :
    (nextOf ({ startAt 0x0200 [0x81, 0xFF] [(0x00FF, 0x00), (0x0000, 0x30), (0x0100, 0x40)] with a := 0x77, x := 0x00 })).map (fun t => (t.result, t.pc, readByte t 0x3000)) =
      some (some (.ok 6), 0x0202, 0x77) := by decide

/-- V-S8L of 95_test_vectors.md (rule R87, rule R74, rule R76) -/
theorem test_staIndX_VS8L :
    (nextOf ({ startAt 0x0200 [0x81, 0xFF] [(0x00FF, 0x00), (0x0000, 0x30), (0x0100, 0x40)] with a := 0x77, x := 0x00, config := { defaultConfig with zpPointerWrap := .linear } })).map (fun t => (t.result, t.pc, readByte t 0x4000)) =
      some (some (.ok 6), 0x0202, 0x77) := by decide

/-- V-S9 of 95_test_vectors.md (rule R87, rule R75, rule R81) -/
theorem test_staIndY_VS9 :
    (nextOf ({ startAt 0x0200 [0x91, 0x40] [(0x0040, 0x90), (0x0041, 0x20)] with a := 0x99, y := 0x80 })).map (fun t => (t.result, t.pc, readByte t 0x2110)) =
      some (some (.ok 7), 0x0202, 0x99) := by decide

/-- V-S10 of 95_test_vectors.md (rule R87, rule R81) -/
theorem test_staIndY_VS10 :
    (nextOf ({ startAt 0x0200 [0x91, 0x40] [(0x0040, 0x90), (0x0041, 0x20)] with a := 0x99, y := 0x80, config := { defaultConfig with penaltyOnStores := false } })).map (fun t => (t.result, t.pc, readByte t 0x2110)) =
      some (some (.ok 6), 0x0202, 0x99) := by decide

/-- V-S11 of 95_test_vectors.md (rule R88) -/
theorem test_stxZp_VS11 :
    (nextOf ({ startAt 0x0200 [0x86, 0x20] [] with x := 0x80 })).map (fun t => (t.result, t.pc, readByte t 0x0020)) =
      some (some (.ok 3), 0x0202, 0x80) := by decide

/-- V-S12 of 95_test_vectors.md (rule R88, rule R70) -/
theorem test_stxZpY_VS12 :
    (nextOf ({ startAt 0x0200 [0x96, 0xFF] [] with x := 0x5A, y := 0x01 })).map (fun t => (t.result, t.pc, readByte t 0x0000)) =
      some (some (.ok 4), 0x0202, 0x5A) := by decide

/-- V-S13 of 95_test_vectors.md (rule R88) -/
theorem test_stxAbs_VS13 :
    (nextOf ({ startAt 0x0200 [0x8E, 0x00, 0x01] [] with x := 0x01 })).map (fun t => (t.result, t.pc, readByte t 0x0100)) =
      some (some (.ok 4), 0x0203, 0x01) := by decide

/-- V-S14 of 95_test_vectors.md (rule R89) -/
theorem test_styZp_VS14 :
    (nextOf ({ startAt 0x0200 [0x84, 0x30] [] with y := 0xC0 })).map (fun t => (t.result, t.pc, readByte t 0x0030)) =
      some (some (.ok 3), 0x0202, 0xC0) := by decide

/-- V-S15 of 95_test_vectors.md (rule R89, rule R69) -/
theorem test_styZpX_VS15 :
    (nextOf ({ startAt 0x0200 [0x94, 0x81] [] with y := 0x11, x := 0x7F })).map (fun t => (t.result, t.pc, readByte t 0x0000)) =
      some (some (.ok 4), 0x0202, 0x11) := by decide

/-- V-S16 of 95_test_vectors.md (rule R89, 20_memory.md rule R46 (store into its own operand byte)) -/
theorem test_styAbs_VS16 :
    (nextOf ({ startAt 0x0200 [0x8C, 0x01, 0x02] [] with y := 0xEA })).map (fun t => (t.result, t.pc, readByte t 0x0201)) =
      some (some (.ok 4), 0x0203, 0xEA) := by decide

/-! ### Transfer -/

/-- V-T1 of 95_test_vectors.md (rule R90) -/
theorem test_tax_VT1 :
    (nextOf ({ startAt 0x0200 [0xAA] [] with a := 0x00, x := 0x12 })).map (fun t => (t.result, t.pc, t.x, t.z)) =
      some (some (.ok 2), 0x0201, 0x00, true) := by decide

/-- V-T2 of 95_test_vectors.md (rule R90) -/
theorem test_tax_VT2 :
    (nextOf ({ startAt 0x0200 [0xAA] [] with a := 0x80 })).map (fun t => (t.result, t.pc, t.x, t.n)) =
      some (some (.ok 2), 0x0201, 0x80, true) := by decide

/-- V-T3 of 95_test_vectors.md (rule R91) -/
theorem test_tay_VT3 :
    (nextOf ({ startAt 0x0200 [0xA8] [] with a := 0x01, y := 0x80, n := true, z := true })).map (fun t => (t.result, t.pc, t.y, t.n, t.z)) =
      some (some (.ok 2), 0x0201, 0x01, false, false) := by decide

/-- V-T4 of 95_test_vectors.md (rule R92) -/
theorem test_txa_VT4 :
    (nextOf ({ startAt 0x0200 [0x8A] [] with x := 0xFF, c := true })).map (fun t => (t.result, t.pc, t.a, t.n)) =
      some (some (.ok 2), 0x0201, 0xFF, true) := by decide

/-- V-T5 of 95_test_vectors.md (rule R93) -/
theorem test_tya_VT5 :
    (nextOf ({ startAt 0x0200 [0x98] [] with y := 0x00, a := 0x44 })).map (fun t => (t.result, t.pc, t.a, t.z)) =
      some (some (.ok 2), 0x0201, 0x00, true) := by decide

/-- V-T6 of 95_test_vectors.md (rule R94 (SP=FF after reset)) -/
theorem test_tsx_VT6 :
    (nextOf (startAt 0x0200 [0xBA] [])).map (fun t => (t.result, t.pc, t.x, t.n)) =
      some (some (.ok 2), 0x0201, 0xFF, true) := by decide

/-- V-T7 of 95_test_vectors.md (rule R94) -/
theorem test_tsx_VT7 :
    (nextOf ({ startAt 0x0200 [0xBA] [] with sp := 0x00, x := 0x01 })).map (fun t => (t.result, t.pc, t.x, t.z)) =
      some (some (.ok 2), 0x0201, 0x00, true) := by decide

/-- V-T8 of 95_test_vectors.md (rule R95 (no flag change although X=0)) -/
theorem test_txs_VT8 :
    (nextOf ({ startAt 0x0200 [0x9A] [] with x := 0x00, n := true })).map (fun t => (t.result, t.pc, t.sp, t.n)) =
      some (some (.ok 2), 0x0201, 0x00, true) := by decide

/-- V-T9 of 95_test_vectors.md (rule R95) -/
theorem test_txs_VT9 :
    (nextOf ({ startAt 0x0200 [0x9A] [] with x := 0x80, z := true })).map (fun t => (t.result, t.pc, t.sp, t.z)) =
      some (some (.ok 2), 0x0201, 0x80, true) := by decide

/-! ### Stack -/

/-- V-K1 of 95_test_vectors.md (rule R98 (source scenario 6)) -/
theorem test_pha_VK1 :
    (nextOf ({ startAt 0x0200 [0x48] [] with a := 0x84, sp := 0x10 })).map (fun t => (t.result, t.pc, t.sp, readByte t 0x0110)) =
      some (some (.ok 3), 0x0201, 0x0F, 0x84) := by decide

/-- V-K2 of 95_test_vectors.md (rule R98, rule R96 (SP wraps 00 to FF)) -/
theorem test_pha_VK2 :
    (nextOf ({ startAt 0x0200 [0x48] [] with a := 0x01, sp := 0x00 })).map (fun t => (t.result, t.pc, t.sp, readByte t 0x0100)) =
      some (some (.ok 3), 0x0201, 0xFF, 0x01) := by decide

/-- V-K3 of 95_test_vectors.md (rule R99, rule R22) -/
theorem test_php_VK3 :
    (nextOf ({ startAt 0x0200 [0x08] [] with c := true, i := true, b := true, n := true })).map (fun t => (t.result, t.pc, t.sp, readByte t 0x01FF)) =
      some (some (.ok 3), 0x0201, 0xFE, 0x95) := by decide

/-- V-K4 of 95_test_vectors.md (rule R99, rule R22) -/
theorem test_php_VK4 :
    (nextOf ({ startAt 0x0200 [0x08] [] with c := true, i := true, b := true, n := true, config := { defaultConfig with statusBit5 := true } })).map (fun t => (t.result, t.pc, t.sp, readByte t 0x01FF)) =
      some (some (.ok 3), 0x0201, 0xFE, 0xB5) := by decide

/-- V-K6 of 95_test_vectors.md (rule R100, rule R97 (SP wraps FF to 00)) -/
theorem test_pla_VK6 :
    (nextOf ({ startAt 0x0200 [0x68] [(0x0100, 0x00)] with sp := 0xFF, n := true })).map (fun t => (t.result, t.pc, t.sp, t.n, t.z)) =
      some (some (.ok 4), 0x0201, 0x00, false, true) := by decide

/-- V-K7 of 95_test_vectors.md (rule R100) -/
theorem test_pla_VK7 :
    (nextOf ({ startAt 0x0200 [0x68] [(0x017E, 0xC3)] with sp := 0x7D })).map (fun t => (t.result, t.pc, t.sp, t.a, t.n)) =
      some (some (.ok 4), 0x0201, 0x7E, 0xC3, true) := by decide

/-- V-K8 of 95_test_vectors.md (rule R101 (bit 5 ignored)) -/
theorem test_plp_VK8 :
    (nextOf ({ startAt 0x0200 [0x28] [(0x01FF, 0xFF)] with sp := 0xFE })).map (fun t => (t.result, t.pc, getStatus t, t.sp)) =
      some (some (.ok 4), 0x0201, 0xDF, 0xFF) := by decide

/-- V-K9 of 95_test_vectors.md (rule R101) -/
theorem test_plp_VK9 :
    (nextOf ({ startAt 0x0200 [0x28] [(0x01FF, 0x20)] with sp := 0xFE, c := true, z := true, i := true, d := true, b := true, v := true, n := true })).map (fun t => (t.result, t.pc, getStatus t, t.sp)) =
      some (some (.ok 4), 0x0201, 0x00, 0xFF) := by decide

/-! ### Logic -/

/-- V-B2 of 95_test_vectors.md (rule R102) -/
theorem test_andImm_VB2 :
    (nextOf ({ startAt 0x0200 [0x29, 0x0F] [] with a := 0xF0 })).map (fun t => (t.result, t.pc, t.a, t.z)) =
      some (some (.ok 2), 0x0202, 0x00, true) := by decide

/-- V-B3 of 95_test_vectors.md (rule R102 (C, V unchanged)) -/
theorem test_andImm_VB3 :
    (nextOf ({ startAt 0x0200 [0x29, 0x80] [] with a := 0xFF, c := true, v := true })).map (fun t => (t.result, t.pc, t.a, t.n)) =
      some (some (.ok 2), 0x0202, 0x80, true) := by decide

/-- V-B4 of 95_test_vectors.md (rule R103) -/
theorem test_eorImm_VB4 :
    (nextOf ({ startAt 0x0200 [0x49, 0xFF] [] with a := 0xFF })).map (fun t => (t.result, t.pc, t.a, t.z)) =
      some (some (.ok 2), 0x0202, 0x00, true) := by decide

/-- V-B5 of 95_test_vectors.md (rule R103) -/
theorem test_eorImm_VB5 :
    (nextOf ({ startAt 0x0200 [0x49, 0x0F] [] with a := 0x70 })).map (fun t => (t.result, t.pc, t.a)) =
      some (some (.ok 2), 0x0202, 0x7F) := by decide

/-- V-B6 of 95_test_vectors.md (rule R104) -/
theorem test_oraImm_VB6 :
    (nextOf ({ startAt 0x0200 [0x09, 0x00] [] with a := 0x00 })).map (fun t => (t.result, t.pc, t.z)) =
      some (some (.ok 2), 0x0202, true) := by decide

/-- V-B7 of 95_test_vectors.md (rule R104) -/
theorem test_oraImm_VB7 :
    (nextOf ({ startAt 0x0200 [0x09, 0x80] [] with a := 0x01 })).map (fun t => (t.result, t.pc, t.a, t.n)) =
      some (some (.ok 2), 0x0202, 0x81, true) := by decide

/-- V-B8 of 95_test_vectors.md (rule R102, rule R68) -/
theorem test_andZp_VB8 :
    (nextOf ({ startAt 0x0200 [0x25, 0x10] [(0x0010, 0x55)] with a := 0xAA })).map (fun t => (t.result, t.pc, t.a, t.z)) =
      some (some (.ok 3), 0x0202, 0x00, true) := by decide

/-- V-B9 of 95_test_vectors.md (rule R103, rule R69) -/
theorem test_eorZpX_VB9 :
    (nextOf ({ startAt 0x0200 [0x55, 0xFF] [(0x0000, 0xFF)] with a := 0x0F, x := 0x01 })).map (fun t => (t.result, t.pc, t.a, t.n)) =
      some (some (.ok 4), 0x0202, 0xF0, true) := by decide

/-- V-B10 of 95_test_vectors.md (rule R104, rule R71) -/
theorem test_oraAbs_VB10 :
    (nextOf ({ startAt 0x0200 [0x0D, 0x00, 0x40] [(0x4000, 0x02)] with a := 0x01 })).map (fun t => (t.result, t.pc, t.a)) =
      some (some (.ok 4), 0x0203, 0x03) := by decide

/-- V-B11 of 95_test_vectors.md (rule R102, rule R72, rule R81) -/
theorem test_andAbsX_VB11 :
    (nextOf ({ startAt 0x0200 [0x3D, 0xFF, 0x20] [(0x2100, 0x81)] with a := 0xFF, x := 0x01 })).map (fun t => (t.result, t.pc, t.a, t.n)) =
      some (some (.ok 5), 0x0203, 0x81, true) := by decide

/-- V-B12 of 95_test_vectors.md (rule R103, rule R73) -/
theorem test_eorAbsY_VB12 :
    (nextOf ({ startAt 0x0200 [0x59, 0x00, 0x20] [(0x2001, 0xFF)] with a := 0xFF, y := 0x01 })).map (fun t => (t.result, t.pc, t.a, t.z)) =
      some (some (.ok 4), 0x0203, 0x00, true) := by decide

/-- V-B13 of 95_test_vectors.md (rule R104, rule R74) -/
theorem test_oraIndX_VB13 :
    (nextOf ({ startAt 0x0200 [0x01, 0x10] [(0x0012, 0x00), (0x0013, 0x30), (0x3000, 0x04)] with a := 0x40, x := 0x02 })).map (fun t => (t.result, t.pc, t.a)) =
      some (some (.ok 6), 0x0202, 0x44) := by decide

/-- V-B14 of 95_test_vectors.md (rule R102, rule R75, rule R81) -/
theorem test_andIndY_VB14 :
    (nextOf ({ startAt 0x0200 [0x31, 0x10] [(0x0010, 0xF8), (0x0011, 0x30), (0x3108, 0x3F)] with a := 0xF0, y := 0x10 })).map (fun t => (t.result, t.pc, t.a)) =
      some (some (.ok 6), 0x0202, 0x30) := by decide

/-- V-B15 of 95_test_vectors.md (rule R103, rule R75) -/
theorem test_eorIndY_VB15 :
    (nextOf ({ startAt 0x0200 [0x51, 0x10] [(0x0010, 0x00), (0x0011, 0x30), (0x3001, 0x00)] with a := 0x00, y := 0x01 })).map (fun t => (t.result, t.pc, t.z)) =
      some (some (.ok 5), 0x0202, true) := by decide

/-- V-B16 of 95_test_vectors.md (rule R104, rule R69) -/
theorem test_oraZpX_VB16 :
    (nextOf ({ startAt 0x0200 [0x15, 0x10] [(0x0010, 0x00)] with a := 0x00, x := 0x00 })).map (fun t => (t.result, t.pc, t.z)) =
      some (some (.ok 4), 0x0202, true) := by decide

/-- By hand from R69, R102 and R126. -/
theorem test_andZpX_by_hand :
    (nextOf ({ startAt 0x0200 [0x35, 0xF8] [(0x0008, 0x6A)] with a := 0xCC, x := 0x10 })).map (fun t => (t.result, t.pc, t.a)) =
      some (some (.ok 4), 0x0202, 0x48) := by decide

/-- By hand from R71, R102 and R126. -/
theorem test_andAbs_by_hand :
    (nextOf ({ startAt 0x0200 [0x2D, 0x00, 0x40] [(0x4000, 0xF0)] with a := 0x8F })).map (fun t => (t.result, t.pc, t.a, t.n)) =
      some (some (.ok 4), 0x0203, 0x80, true) := by decide

/-- By hand from R73, R102 and R126. -/
theorem test_andAbsY_by_hand :
    (nextOf ({ startAt 0x0200 [0x39, 0xFF, 0x40] [(0x4101, 0x0F)] with a := 0x3C, y := 0x02 })).map (fun t => (t.result, t.pc, t.a)) =
      some (some (.ok 5), 0x0203, 0x0C) := by decide

/-- By hand from R74, R102 and R126. -/
theorem test_andIndX_by_hand :
    (nextOf ({ startAt 0x0200 [0x21, 0xFE] [(0x0001, 0x00), (0x0002, 0x30), (0x3000, 0x55)] with a := 0xFF, x := 0x03 })).map (fun t => (t.result, t.pc, t.a)) =
      some (some (.ok 6), 0x0202, 0x55) := by decide

/-- By hand from R68, R103 and R126. -/
theorem test_eorZp_by_hand :
    (nextOf ({ startAt 0x0200 [0x45, 0x7F] [(0x007F, 0xAA)] with a := 0xAA })).map (fun t => (t.result, t.pc, t.a, t.z)) =
      some (some (.ok 3), 0x0202, 0x00, true) := by decide

/-- By hand from R71, R103 and R126. -/
theorem test_eorAbs_by_hand :
    (nextOf ({ startAt 0x0200 [0x4D, 0x01, 0x40] [(0x4001, 0xF0)] with a := 0x0F })).map (fun t => (t.result, t.pc, t.a, t.n)) =
      some (some (.ok 4), 0x0203, 0xFF, true) := by decide

/-- By hand from R72, R103 and R126. -/
theorem test_eorAbsX_by_hand :
    (nextOf ({ startAt 0x0200 [0x5D, 0x80, 0x40] [(0x4100, 0x55)] with a := 0x33, x := 0x80 })).map (fun t => (t.result, t.pc, t.a)) =
      some (some (.ok 5), 0x0203, 0x66) := by decide

/-- By hand from R74, R103 and R126. -/
theorem test_eorIndX_by_hand :
    (nextOf ({ startAt 0x0200 [0x41, 0x10] [(0x0020, 0xFF), (0x0021, 0x40), (0x40FF, 0x03)] with a := 0x01, x := 0x10 })).map (fun t => (t.result, t.pc, t.a)) =
      some (some (.ok 6), 0x0202, 0x02) := by decide

/-- By hand from R68, R104 and R126. -/
theorem test_oraZp_by_hand :
    (nextOf ({ startAt 0x0200 [0x05, 0x10] [(0x0010, 0xA0)] with a := 0x11 })).map (fun t => (t.result, t.pc, t.a, t.n)) =
      some (some (.ok 3), 0x0202, 0xB1, true) := by decide

/-- By hand from R72, R104 and R126. -/
theorem test_oraAbsX_by_hand :
    (nextOf ({ startAt 0x0200 [0x1D, 0xFF, 0xFF] [(0x0001, 0x02)] with a := 0x40, x := 0x02 })).map (fun t => (t.result, t.pc, t.a)) =
      some (some (.ok 5), 0x0203, 0x42) := by decide

/-- By hand from R73, R104 and R126. -/
theorem test_oraAbsY_by_hand :
    (nextOf ({ startAt 0x0200 [0x19, 0x00, 0x40] [(0x40FF, 0x01)] with a := 0x08, y := 0xFF })).map (fun t => (t.result, t.pc, t.a)) =
      some (some (.ok 4), 0x0203, 0x09) := by decide

/-- By hand from R75, R104 and R126. -/
theorem test_oraIndY_by_hand :
    (nextOf ({ startAt 0x0200 [0x11, 0x40] [(0x0040, 0xFF), (0x0041, 0x50), (0x5100, 0x80)] with a := 0x00, y := 0x01 })).map (fun t => (t.result, t.pc, t.a, t.n)) =
      some (some (.ok 6), 0x0202, 0x80, true) := by decide

/-! ### Unknown opcode -/

/-- V-U1 of 95_test_vectors.md: the whole state after, but PC, the returned value and the recorded opcode, is the state before. -/
theorem test_unknown_VU1 :
    faultOf ({ startAt 0x1234 [0x00] [] with a := 0x11, x := 0x22, y := 0x33, c := true, n := true }) =
      some (.unknownOpcode 0x00 (({ startAt 0x1234 [0x00] [] with a := 0x11, x := 0x22, y := 0x33, c := true, n := true }).setPc 0x1235
        |>.setOpcode 0x00 |>.setResult (some (.unknownOpcode 0x00)))) := by decide

/-- V-U2 of 95_test_vectors.md: the whole state after, but PC, the returned value and the recorded opcode, is the state before. -/
theorem test_unknown_VU2 :
    faultOf (startAt 0xFFFF [0xFF] []) =
      some (.unknownOpcode 0xFF ((startAt 0xFFFF [0xFF] []).setPc 0x0000
        |>.setOpcode 0xFF |>.setResult (some (.unknownOpcode 0xFF)))) := by decide

/-- V-U3 and V-U5 of 95_test_vectors.md: STA Immediate and NOP do not exist. -/
theorem test_unknown_VU3_VU5 :
    (faultOf (startAt 0x0200 [0x89, 0x10] [])).isSome = true ∧ (faultOf (startAt 0x0200 [0xEA] [])).isSome = true := by decide

/-! ### Another setting of `OPCODE_TABLE` (R7, R55): 0x00 is LDA Immediate at 9 cycles, 0xA9 has no entry -/

/-- A state under that setting. -/
def otherTable (bytes : List Byte) : State :=
  { startAt 0x0200 bytes [] with
    config := { defaultConfig with
      opcodeOverrides := [(0x00, some (.lda, .immediate)), (0xA9, none), (0xFF, some (.sta, .immediate))]
      baseCycleOverrides := [(0x00, 9)] } }

/-- By hand from R61, R80 and R84: the byte runs its entry and costs what its own byte costs. -/
theorem test_table_entry_added :
    (nextOf (otherTable [0x00, 0x80])).map (fun t => (t.result, t.pc, t.a, t.n)) =
      some (some (.ok 9), 0x0202, 0x80, true) := by decide

/-- By hand from R57 and R65: a removed entry, and a pair that no rule has. -/
theorem test_table_entry_removed :
    (faultOf (otherTable [0xA9, 0x42])).isSome = true ∧ (faultOf (otherTable [0xFF, 0x42])).isSome = true := by decide

/-- A byte the setting does not list has its default row. -/
theorem test_table_entry_default :
    (nextOf (otherTable [0xA2, 0x42])).map (fun t => (t.result, t.x)) = some (some (.ok 2), 0x42) := by decide

/-! ### Memory, status byte, fetch and reset (2.1 to 2.4) -/

/-- V-M2, V-M3: a word at 0xFFFF has its high byte at 0x0000. -/
theorem test_writeWord_wraps_VM2 :
    let s := writeWord State.reset 0xFFFF 0x1234
    readByte s 0xFFFF = 0x34 ∧ readByte s 0x0000 = 0x12 ∧ readWord s 0xFFFF = 0x1234 := by decide

/-- V-M4: little-endian. -/
theorem test_writeWord_VM4 : readByte (writeWord State.reset 0x0200 0xBEEF) 0x0201 = 0xBE := by decide

/-- V-M5: the memory primitive leaves page 0, the zero-page pointer read does not. -/
theorem test_readWord_VM5 :
    let s := startAt 0x0200 [] [(0x00FF, 0x34), (0x0100, 0x12), (0x0000, 0x56)]
    readWord s 0x00FF = 0x1234 ∧ zpReadWord s 0xFF = 0x5634 := by decide

/-- Writing the value an unlisted address reads as leaves no cell. -/
theorem test_store_canonical : (writeByte (writeByte State.reset 0x0010 0xAB) 0x0010 0x00).mem = [] := by decide

/-- V-P1, V-P2, V-P3: the status byte with all flags set, under both settings of bit 5, and with none. -/
theorem test_getStatus_VP1 :
    let s := State.reset.setStatus 0xFF
    getStatus s = 0xDF ∧ getStatus { s with config := { defaultConfig with statusBit5 := true } } = 0xFF ∧
      getStatus State.reset = 0x00 := by decide

/-- V-P4, V-P5, V-P6. -/
theorem test_setStatus_VP4 :
    getStatus (State.reset.setStatus 0xA5) = 0x85 ∧ getStatus ((State.reset.setStatus 0xFF).setStatus 0x20) = 0x00 ∧
      (State.reset.setStatus 0x10).b = true := by decide

/-- V-F1, V-F2, V-F3: PC wraps. -/
theorem test_fetch_VF1 :
    (fetchByte (startAt 0xFFFF [0xA9] [])).2.pc = 0x0000 ∧
    (fetchWord (startAt 0xFFFE [0x34, 0x12] [])).1 = 0x1234 ∧ (fetchWord (startAt 0xFFFE [0x34, 0x12] [])).2.pc = 0x0000 ∧
    (fetchWord (startAt 0xFFFF [0x34, 0x12] [])).1 = 0x1234 ∧
    (fetchWord (startAt 0xFFFF [0x34, 0x12] [])).2.pc = 0x0001 := by decide

/-- V-R2: reset after a run, memory kept. -/
theorem test_reset_VR2 :
    let s := { startAt 0x0200 [] [(0xFFFD, 0x80), (0x0010, 0xAA)] with a := 0x55, x := 0x66, y := 0x77, sp := 0x10 }
    let t := resetCpu (s.setStatus 0xFF)
    (t.pc, t.sp, t.a, t.x, t.y, getStatus t, readByte t 0x0010) = (0x8000, 0xFF, 0x00, 0x00, 0x00, 0x00, 0xAA) := by
  decide

/-- V-R5: a vector written after reset counts at the next reset only. -/
theorem test_reset_VR5 :
    let s := resetCpu (startAt 0x0200 [] [(0xFFFC, 0x34), (0xFFFD, 0x12)])
    let t := hostAct (.writeWord 0xFFFC 0x9000) s
    t.pc = 0x1234 ∧ (hostAct .reset t).pc = 0x9000 := by decide

/-- `State.reset` is the state `reset()` leaves over a memory that lists nothing (R30, R117). -/
theorem test_reset_is_resetCpu : resetCpu { State.reset with a := 0x55, pc := 0x1234, z := true } = State.reset := by
  decide

/-! ## Witnesses: states and operands that meet the hypotheses of the obligations

Named after the obligation; a statement with several clauses has a witness for each, at the ends of its range. -/

open Sys2Proof.Safety Sys2Proof.Claims

/-- LDA $3000,X whose bytes stand at 0xFFFE, 0xFFFF and 0x0000. -/
def wrapping : State := { startAt 0xFFFE [0xBD, 0x00, 0x30] [(0x3005, 0x66)] with x := 0x05 }

theorem witness_DecodeEncodeAgree :
    tableEntry (otherTable []).config 0x00 = some ((Instr.ldaImm 0xFF).operation, (Instr.ldaImm 0xFF).mode) ∧
      tableEntry defaultConfig 0xBE = some ((Instr.ldxAbsY 0xFFFF).operation, (Instr.ldxAbsY 0xFFFF).mode) := by decide

theorem witness_EncodeDecodeAgree :
    decode [0x99, 0xFF, 0x00, 0x77] = .ok (.staAbsY 0x00FF, [0x77]) ∧
      decodeWith (otherTable []).config.opcodeOverrides [0x00, 0xFF, 0x77] = .ok (.ldaImm 0xFF, [0x77]) := ⟨rfl, rfl⟩

theorem witness_OpcodeTableIsSpecTable :
    (0x01, .ora, .indirectX) ∈ specTable ∧ (0x08, .php, .implied) ∈ specTable ∧ (0xBE, .ldx, .absoluteY) ∈ specTable ∧
      decode [0xBE, 0xFF, 0x12] = .ok (.ldxAbsY 0x12FF, []) ∧
      (let table : Byte → Option (Operation × Mode) := fun op => if op = 0x00 then some (.lda, .immediate) else none
       ∀ (op : Byte) (p : Operation × Mode), table op = some p → pairing p.1 p.2 = true) := by
  refine ⟨by decide, by decide, by decide, rfl, fun op p h => ?_⟩
  dsimp only at h
  split at h <;> cases h
  rfl

theorem witness_UndefinedOpcodesAreRefused :
    0x00 ∈ undefinedOpcodes ∧ 0xFF ∈ undefinedOpcodes ∧ 0x01 ∉ undefinedOpcodes ∧ 0xBE ∉ undefinedOpcodes ∧
      (let s := startAt 0xFFFF [0xFF] []; s.config.opcodeOverrides = [] ∧ readByte s s.pc ∈ undefinedOpcodes) ∧
      entryAtPc (otherTable [0xA9, 0x42]) = none ∧ entryAtPc (otherTable [0xFF, 0x42]) = none := by decide

theorem witness_StepRunsDecodedInstruction :
    decodeWith wrapping.config.opcodeOverrides (bytesAt wrapping wrapping.pc 3) = .ok (.ldaAbsX 0x3000, []) ∧
      (let s := otherTable [0x00, 0x80]
       decodeWith s.config.opcodeOverrides (bytesAt s s.pc 3) = .ok (.ldaImm 0x80, [0x00])) := ⟨rfl, rfl⟩

theorem witness_FetchPrimitives :
    (startAt 0xFFFF [] []).pc = 0xFFFF ∧ wrapping.pc = 0xFFFE ∧ ∃ t : State, exec .tax wrapping = .next t :=
  ⟨rfl, rfl, _, rfl⟩

theorem witness_UnknownOpcodeFailure :
    (∃ (s : State) (f : Fault), entryAtPc s = none ∧ step s = .fault f) ∧ entryAtPc (otherTable [0xA9]) = none :=
  ⟨⟨startAt 0xFFFF [0xFF] [], _, by decide, rfl⟩, by decide⟩

theorem witness_NextStepAfterUnknownOpcode :
    ∃ s u : State, step s = .fault (.unknownOpcode 0x02 u) ∧ u.pc = 0x0000 :=
  ⟨startAt 0xFFFF [0x02] [], _, rfl, rfl⟩

theorem witness_EveryInstructionCompletes :
    entryAtPc wrapping ≠ none ∧ entryAtPc (otherTable [0x00, 0x80]) ≠ none ∧
      entryAtPc (startAt 0x0000 [0xEA] []) = none ∧ entryAtPc (otherTable [0xA9]) = none := by decide

theorem witness_PcAdvancesByLength :
    (∃ t : State, exec (.ldaAbsX 0x3000) wrapping = .next t) ∧ (∃ t : State, step wrapping = .next t) ∧
      (∃ (s u : State) (op : Byte), step s = .fault (.unknownOpcode op u)) ∧
      (hostAct (.writePc 0xFFFF) wrapping).pc ≠ wrapping.pc ∧ (hostAct .reset wrapping).pc ≠ wrapping.pc :=
  ⟨⟨_, rfl⟩, ⟨_, rfl⟩, ⟨startAt 0x0000 [0x00] [], _, _, rfl⟩, by decide, by decide⟩

/-- A crossing store, under both settings of `PENALTY_ON_STORES`, a crossing load, and a failed step. -/
theorem witness_CycleCost :
    (∃ t : State, step wrapping = .next t) ∧ (∃ s u : State, step s = .fault (.unknownOpcode 0x00 u)) ∧
      (∃ s t : State, exec (.staAbsX 0x12FF) s = .next t ∧ (resolve (.absoluteX 0x12FF) s).crossed = true ∧
        s.config.penaltyOnStores = true) ∧
      (∃ s t : State, exec (.staAbsX 0x12FF) s = .next t ∧ (resolve (.absoluteX 0x12FF) s).crossed = true ∧
        s.config.penaltyOnStores = false) ∧
      ∃ s t : State, exec (.ldaAbsY 0x12FF) s = .next t ∧ (resolve (.absoluteY 0x12FF) s).crossed = true :=
  ⟨⟨_, rfl⟩, ⟨startAt 0x0000 [0x00] [], _, rfl⟩, ⟨{ wrapping with x := 0x01 }, _, rfl, rfl, rfl⟩,
    ⟨{ wrapping with x := 0x01, config := { defaultConfig with penaltyOnStores := false } }, _, rfl, rfl, rfl⟩,
    { wrapping with y := 0x01 }, _, rfl, rfl⟩

/-- The ends of the range: TAX costs 2, a crossing STA ($zz),Y costs 7. -/
theorem witness_CycleCountsWithinTwoToSeven :
    (∃ s t : State, s.config.baseCycleOverrides = [] ∧ s.config.opcodeOverrides = [] ∧ step s = .next t ∧
      t.result = some (.ok 2)) ∧
      ∃ s t : State, s.config.baseCycleOverrides = [] ∧ s.config.opcodeOverrides = [] ∧ step s = .next t ∧
        t.result = some (.ok 7) :=
  ⟨⟨startAt 0x0000 [0xAA] [], _, rfl, rfl, rfl, rfl⟩,
    { startAt 0x0200 [0x91, 0x20] [(0x0020, 0xFF), (0x0021, 0xFF)] with y := 0xFF }, _, rfl, rfl, rfl, rfl⟩

theorem witness_DefaultCycleTable : (0x01, 6) ∈ specCycles ∧ (0xBE, 4) ∈ specCycles := by decide

/-- A state for each clause, the LDA Absolute,X with a crossing and a 16-bit wrap, and a failed step. -/
theorem witness_SourceCycleCounts :
    (∀ op ∈ [0xA9, 0xA5, 0xBD, 0x48, 0x29],
      let s := { startAt 0x0200 [op, 0xFF, 0xFF] [] with x := 0x01 }
      s.config = defaultConfig ∧ readByte s s.pc = op ∧ (nextOf s).isSome = true) ∧
      ∃ (z u : State) (op : Byte), step z = .fault (.unknownOpcode op u) :=
  ⟨by decide, startAt 0x0000 [0x00] [], _, _, rfl⟩

/-- For each clause a state whose byte at PC has that entry, PC at both ends of memory, and one under another table. -/
theorem witness_AddressingModesFromBytes :
    (Instr.stxZpY 0xFF).mode = .zeroPageY ∧ entryAtPc (otherTable [0x00, 0x80]) = some (.lda, .immediate) ∧
      ∀ e ∈ ([(0xA9, .lda, .immediate), (0xA5, .lda, .zeroPage), (0xB5, .lda, .zeroPageX), (0xAD, .lda, .absolute),
          (0xBD, .lda, .absoluteX), (0xB9, .lda, .absoluteY), (0xA1, .lda, .indirectX), (0xB1, .lda, .indirectY),
          (0xB6, .ldx, .zeroPageY), (0xAA, .tax, .implied)] : List (Byte × Operation × Mode)),
        entryAtPc (startAt 0xFFFF [e.1, 0xFF, 0xFF] []) = some e.2 ∧ entryAtPc (startAt 0x0000 [e.1] []) = some e.2 := by
  decide

theorem witness_ZeroPagePointerRead :
    wrapping.config.zpPointerWrap = .page0 ∧
      ({ wrapping with config := { defaultConfig with zpPointerWrap := .linear } } : State).config.zpPointerWrap = .linear ∧
      (0xFE : Byte) ≠ 0xFF ∧ (0x00 : Byte) ≠ 0xFF := by decide

/-- Two different memories that agree on page 0. -/
theorem witness_ZeroPageModesStayInPageZero :
    ∃ s t : State, s.mem ≠ t.mem ∧ s.config.zpPointerWrap = .page0 ∧ t.config.zpPointerWrap = .page0 ∧
      ∀ a : Word, a.toNat < 256 → readByte s a = readByte t a := by
  refine ⟨writeByte wrapping 0x0100 0x55, wrapping, by decide, rfl, rfl, fun a ha => ?_⟩
  rw [readByte_writeByte_eq_ite, if_neg]
  rintro rfl
  exact absurd ha (by decide)

theorem witness_StoreLaws : (0x0000 : Word) ≠ 0xFFFF := by decide

theorem witness_CanonicalMemoriesAreExtensional :
    (let m : Memory := [(0, 0x01), (65535, 0xFF)]; Memory.wf m ∧ ∀ a : Nat, Memory.load m a = Memory.load m a) ∧
      Inv wrapping := ⟨⟨by decide, fun _ => rfl⟩, by decide⟩

theorem witness_StatusBytePacking : State.reset.config.statusBit5 = false := rfl

theorem witness_LdaLoadsAccumulator :
    (Instr.ldaImm 0x00).operation = .lda ∧ (Instr.ldaImm 0x00).operand = some (.immediate 0x00) ∧
      (Instr.ldaIndY 0xFF).operation = .lda ∧ (Instr.ldaIndY 0xFF).operand = some (.memory (.indirectY 0xFF)) := by
  decide

theorem witness_LdxLoadsX :
    (Instr.ldxImm 0xFF).operation = .ldx ∧ (Instr.ldxImm 0xFF).operand = some (.immediate 0xFF) ∧
      (Instr.ldxZpY 0xFF).operation = .ldx ∧ (Instr.ldxZpY 0xFF).operand = some (.memory (.zeroPageY 0xFF)) := by decide

theorem witness_LdyLoadsY :
    (Instr.ldyImm 0x80).operation = .ldy ∧ (Instr.ldyImm 0x80).operand = some (.immediate 0x80) ∧
      (Instr.ldyAbsX 0xFFFF).operation = .ldy ∧
      (Instr.ldyAbsX 0xFFFF).operand = some (.memory (.absoluteX 0xFFFF)) := by decide

theorem witness_StaStoresAccumulator :
    (Instr.staIndX 0xFF).operation = .sta ∧ (Instr.staIndX 0xFF).operand = some (.memory (.indirectX 0xFF)) ∧
      ∃ t : State, exec (.staIndX 0xFF) wrapping = .next t := ⟨rfl, rfl, _, rfl⟩

theorem witness_StxStoresX :
    (Instr.stxZpY 0xFF).operation = .stx ∧ (Instr.stxZpY 0xFF).operand = some (.memory (.zeroPageY 0xFF)) ∧
      ∃ t : State, exec (.stxZpY 0xFF) wrapping = .next t := ⟨rfl, rfl, _, rfl⟩

theorem witness_StyStoresY :
    (Instr.styAbs 0xFFFF).operation = .sty ∧ (Instr.styAbs 0xFFFF).operand = some (.memory (.absolute 0xFFFF)) ∧
      ∃ t : State, exec (.styAbs 0xFFFF) wrapping = .next t := ⟨rfl, rfl, _, rfl⟩

theorem witness_AndMasksAccumulator :
    (Instr.andAbsX 0xFFFF).operation = .and ∧ (Instr.andAbsX 0xFFFF).operand = some (.memory (.absoluteX 0xFFFF)) := by
  decide

theorem witness_EorTogglesAccumulator :
    (Instr.eorZpX 0xFF).operation = .eor ∧ (Instr.eorZpX 0xFF).operand = some (.memory (.zeroPageX 0xFF)) := by decide

theorem witness_OraSetsAccumulatorBits :
    (Instr.oraIndX 0xFF).operation = .ora ∧ (Instr.oraIndX 0xFF).operand = some (.memory (.indirectX 0xFF)) := by decide

/-- One instruction for each clause, and a failed step. -/
theorem witness_FlagWriteTable :
    (∃ s t : State, exec .plp s = .next t ∧ s.sp = 0xFF) ∧
      (∃ s t : State, exec (.ldaImm 0x00) s = .next t ∧ (Instr.ldaImm 0x00).operation = .lda) ∧
      (∃ s t : State, exec .tsx s = .next t ∧ Instr.tsx.operation = .tsx) ∧
      (∃ s t : State, exec .tay s = .next t ∧ Instr.tay.operation = .tay) ∧
      (∃ s t : State, exec .txs s = .next t ∧ Instr.txs.operation = .txs) ∧
      ∃ (s u : State) (op : Byte), step s = .fault (.unknownOpcode op u) :=
  ⟨⟨State.reset, _, rfl, rfl⟩, ⟨wrapping, _, rfl, rfl⟩, ⟨wrapping, _, rfl, rfl⟩, ⟨wrapping, _, rfl, rfl⟩,
    ⟨wrapping, _, rfl, rfl⟩, startAt 0x0000 [0x00] [], _, _, rfl⟩

/-- PHP writes none of A, X, Y; LDA does not write SP. -/
theorem witness_RegisterWriteFrame :
    (∃ s t : State, exec .php s = .next t ∧ Instr.php.operation ∉ [.lda, .txa, .tya, .pla, .and, .eor, .ora] ∧
      Instr.php.operation ∉ [.ldx, .tax, .tsx] ∧ Instr.php.operation ∉ [.ldy, .tay]) ∧
      ∃ s t : State, exec (.ldaZp 0xFF) s = .next t ∧
        (Instr.ldaZp 0xFF).operation ∉ [.txs, .pha, .php, .pla, .plp] :=
  ⟨⟨wrapping, _, rfl, by decide, by decide, by decide⟩, wrapping, _, rfl, by decide⟩

/-- A store at 0xFFFF, a push at 0x0100, and an instruction that stores nothing. -/
theorem witness_MemoryFrame :
    (∃ s t : State, exec (.staAbs 0xFFFF) s = .next t ∧ stored (.staAbs 0xFFFF) s = some (0xFFFF, s.a)) ∧
      (∃ s t : State, exec .pha s = .next t ∧ stored .pha s = some (0x0100, s.a)) ∧
      ∃ s t : State, exec .pla s = .next t ∧ stored .pla s = none :=
  ⟨⟨wrapping, _, rfl, rfl⟩, ⟨{ wrapping with sp := 0x00 }, _, rfl, rfl⟩, wrapping, _, rfl, rfl⟩

/-- Two states that differ in the flags, at LDA and at an undefined byte. -/
theorem witness_FlagsAreReadByPhpAlone :
    (∃ s t u : State, s ≠ t ∧ SameButFlags s t ∧ entryAtPc s ≠ some (.php, .implied) ∧ step s = .next u) ∧
      ∃ (s t u : State) (op : Byte), s ≠ t ∧ SameButFlags s t ∧ entryAtPc s ≠ some (.php, .implied) ∧
        step s = .fault (.unknownOpcode op u) :=
  ⟨⟨wrapping, wrapping.setStatus 0xFF, _, by decide, ⟨rfl, rfl, rfl, rfl, rfl, rfl, rfl, rfl, rfl⟩, by decide, rfl⟩,
    startAt 0x0000 [0x00] [], (startAt 0x0000 [0x00] []).setStatus 0xFF, _, _, by decide,
    ⟨rfl, rfl, rfl, rfl, rfl, rfl, rfl, rfl, rfl⟩, by decide, rfl⟩

theorem witness_ParametersNeverChange :
    (∃ t : State, stateAfter (step wrapping) = some t) ∧
      ∃ s t : State, stateAfter (step s) = some t ∧ readByte s s.pc ∈ undefinedOpcodes :=
  ⟨⟨_, rfl⟩, startAt 0x0000 [0x00] [], _, rfl, by decide⟩

theorem witness_StackPrimitives :
    ({ State.reset with sp := 0x00 } : State).sp = 0x00 ∧ State.reset.sp = 0xFF := by decide

/-- The bytes next to page 1 on both sides, and pushes at both ends of it. -/
theorem witness_StackNeverLeavesPageOne :
    (∃ s t : State, s.sp = 0x00 ∧ exec .pha s = .next t ∧ (0x00FF : Word).toNat < 0x0100) ∧
      ∃ s t : State, s.sp = 0xFF ∧ exec .php s = .next t ∧ 0x01FF < (0x0200 : Word).toNat :=
  ⟨⟨{ wrapping with sp := 0x00 }, _, rfl, rfl, by decide⟩, State.reset, _, rfl, rfl, by decide⟩

theorem witness_ResetForgetsTheCpuState :
    ∃ s t : State, s ≠ t ∧ s.mem = t.mem ∧ s.config = t.config :=
  ⟨wrapping, { wrapping with a := 0xFF, pc := 0x1234, n := true }, by decide, rfl, rfl⟩

theorem witness_ResetStateIsAReset :
    ∃ s : State, s ≠ State.reset ∧ s.mem = [] ∧ s.config = defaultConfig :=
  ⟨{ State.reset with a := 0xFF, pc := 0x1234, n := true }, by decide, rfl, rfl⟩

theorem witness_StoresAreSeenByFetch :
    ∃ s t : State, isStore (.staZpX 0xFF) = true ∧ stored (.staZpX 0xFF) s = some (0x0004, 0x9A) ∧
      exec (.staZpX 0xFF) s = .next t :=
  ⟨{ wrapping with a := 0x9A }, _, rfl, rfl, rfl⟩

/-- STA $FFFF with its bytes at 0xFFFE, 0xFFFF and 0x0000, and STA $0201 at 0x0200. -/
theorem witness_StoreIntoOwnOperand :
    (let s := startAt 0xFFFE [0x8D, 0xFF, 0xFF] []; entryAtPc s = some (.sta, .absolute) ∧ readWord s (s.pc + 1) = s.pc + 1) ∧
      (let s := startAt 0x0200 [0x8D, 0x01, 0x02] []; entryAtPc s = some (.sta, .absolute) ∧ readWord s (s.pc + 1) = s.pc + 1) := by
  decide

theorem witness_StepKeepsMemoryCanonical :
    (∃ s t : State, Inv s ∧ s.mem ≠ [] ∧ step s = .next t) ∧
      ∃ (s u : State) (op : Byte), Inv s ∧ s.mem ≠ [] ∧ step s = .fault (.unknownOpcode op u) :=
  ⟨⟨wrapping, _, by decide, by decide, rfl⟩, startAt 0xFFFF [0xFF] [], _, _, by decide, by decide, rfl⟩

/-- A failed step, a host's write after it, and a completed step. -/
theorem witness_ReachableStatesStayCanonical :
    ∃ s t : State, Inv s ∧ Reaches s t ∧ s ≠ t :=
  let s := startAt 0x0000 [0x00, 0xAA] []
  let after := (({ s with pc := 0x0001 }).setOpcode 0x00).setResult (some (.unknownOpcode 0x00))
  let written := hostAct (.writeByte 0xFFFF 0x12) after
  ⟨s, _, by decide, .step written _ (.host _ after (.step s after .start rfl)) rfl, by decide⟩

end Sys2Proof.Tests
end

section
/-! The opcode table of the model against the spec's (30_encoding.md R55), under every setting of `OPCODE_TABLE`: what a
byte with an entry decodes to, and what bytes an instruction was decoded from. -/

namespace Sys2Proof

open Sys2Proof.Machine Sys2Proof.Claims

/-- The pair of operation and mode of a form. -/
def Form.entry (form : Form) : Operation × Mode := (form.sample.operation, form.sample.mode)

/-- The form makes the instruction at some value of its operand field (R51). -/
def Form.Makes (form : Form) (i : Instr) : Prop :=
  match form with
  | .implied j => j = i
  | .byte mk => ∃ b, mk b = i
  | .word mk => ∃ w, mk w = i

/-! ## The two tables -/

theorem specTable_lookup_of_mem_opcodeRows :
    ∀ r ∈ opcodeRows, specTable.lookup r.opcode = some r.form.entry := by decide

theorem defaultRow_of_mem_specTable :
    ∀ p ∈ specTable, (defaultRow p.1).map (fun r => r.form.entry) = some p.2 := by decide

theorem mem_specTable_of_lookup {op : Byte} {p : Operation × Mode} (h : specTable.lookup op = some p) :
    (op, p) ∈ specTable := by
  obtain ⟨before, after, heq, -⟩ := List.lookup_eq_some_iff.mp h
  rw [heq]
  simp

theorem defaultRow_opcode {op : Byte} {r : OpcodeRow} (h : defaultRow op = some r) : r.opcode = op := by
  simpa using List.find?_some h

/-- The default rows give every byte the entry of R55, and no other byte one. -/
theorem defaultRow_entry (op : Byte) : (defaultRow op).map (fun r => r.form.entry) = specTable.lookup op := by
  cases hs : specTable.lookup op with
  | some p => exact defaultRow_of_mem_specTable _ (mem_specTable_of_lookup hs)
  | none =>
    cases hr : defaultRow op with
    | none => rfl
    | some r =>
      have hentry := specTable_lookup_of_mem_opcodeRows r (List.mem_of_find?_eq_some hr)
      simp [defaultRow_opcode hr, hs] at hentry

/-- A pair of operation and mode has a row exactly if R84 to R104 have the pair. -/
theorem rowOf_entry (o : Operation) (m : Mode) :
    (rowOf o m).map (fun r => r.form.entry) = (some (o, m)).filter (fun p => pairing p.1 p.2) := by
  cases o <;> cases m <;> rfl

/-- Dispatch under a setting of `OPCODE_TABLE` follows the spec's reading of that setting. -/
theorem lookupOpcode_entry (cfg : Config) (op : Byte) :
    (lookupOpcode cfg.opcodeOverrides op).map Form.entry = tableEntry cfg op := by
  unfold lookupOpcode tableEntry
  cases cfg.opcodeOverrides.lookup op with
  | none => simpa [Function.comp_def] using defaultRow_entry op
  | some departure =>
    cases departure with
    | none => rfl
    | some p => simpa [Function.comp_def] using rowOf_entry p.1 p.2

/-- No two rows have the same pair of operation and mode. -/
theorem opcodeRows_entries_nodup : (opcodeRows.map (fun r => r.form.entry)).Nodup := by decide

/-- A row is the one that is found by its pair. -/
theorem rowOf_entry_of_mem {r : OpcodeRow} (hr : r ∈ opcodeRows) :
    rowOf r.form.entry.1 r.form.entry.2 = some r := by
  have hsome : (rowOf r.form.entry.1 r.form.entry.2).isSome := List.find?_isSome.mpr ⟨r, hr, by simp [Form.entry]⟩
  obtain ⟨found, hfound⟩ := Option.isSome_iff_exists.mp hsome
  obtain ⟨ho, hm⟩ := rowOf_sample hfound
  rw [hfound, List.inj_on_of_nodup_map opcodeRows_entries_nodup (List.mem_of_find?_eq_some hfound) hr (Prod.ext ho hm)]

/-- Every instruction is made by a row, which has the opcode byte that `encode` writes. -/
theorem rowOf_instr (i : Instr) :
    ∃ r, rowOf i.operation i.mode = some r ∧ r.opcode = i.opcode ∧ r.form.Makes i := by
  cases i
  case tax | tay | txa | tya | tsx | txs | pha | php | pla | plp => exact ⟨_, rfl, rfl, rfl⟩
  all_goals exact ⟨_, rfl, rfl, _, rfl⟩

/-- The row that has the pair of an instruction has its opcode byte and makes it. -/
theorem row_of_entry {r : OpcodeRow} (hr : r ∈ opcodeRows) {i : Instr} (h : r.form.entry = (i.operation, i.mode)) :
    r.opcode = i.opcode ∧ r.form.Makes i := by
  obtain ⟨found, hfound, hop, hmakes⟩ := rowOf_instr i
  have hrow := rowOf_entry_of_mem hr
  rw [h, hfound] at hrow
  obtain rfl := Option.some.inj hrow
  exact ⟨hop, hmakes⟩

/-- The opcode byte that `encode` writes has the entry of the instruction in R55. -/
theorem specTable_lookup_opcode (i : Instr) : specTable.lookup i.opcode = some (i.operation, i.mode) := by
  obtain ⟨r, hrow, hop, -⟩ := rowOf_instr i
  obtain ⟨ho, hm⟩ := rowOf_sample hrow
  rw [← hop, specTable_lookup_of_mem_opcodeRows r (List.mem_of_find?_eq_some hrow), Form.entry, ho, hm]

/-- At the default table no other byte has the entry of the instruction. -/
theorem opcode_eq_of_specTable_lookup {op : Byte} {i : Instr}
    (h : specTable.lookup op = some (i.operation, i.mode)) : op = i.opcode := by
  rw [← defaultRow_entry] at h
  obtain ⟨r, hr, hentry⟩ := Option.map_eq_some_iff.mp h
  obtain ⟨hop, -⟩ := row_of_entry (List.mem_of_find?_eq_some hr) hentry
  exact (defaultRow_opcode hr).symm.trans hop

/-! ## Decoding by the entry of the opcode byte -/

theorem exists_form_of_tableEntry {cfg : Config} {op : Byte} {p : Operation × Mode} (h : tableEntry cfg op = some p) :
    ∃ form, lookupOpcode cfg.opcodeOverrides op = some form ∧ form.entry = p :=
  Option.map_eq_some_iff.mp ((lookupOpcode_entry cfg op).trans h)

theorem lookupOpcode_eq_none {cfg : Config} {op : Byte} (h : tableEntry cfg op = none) :
    lookupOpcode cfg.opcodeOverrides op = none :=
  Option.map_eq_none_iff.mp ((lookupOpcode_entry cfg op).trans h)

/-- A byte with the entry of an instruction has a form that makes it. -/
theorem exists_form_makes {cfg : Config} {op : Byte} {i : Instr} (h : tableEntry cfg op = some (i.operation, i.mode)) :
    ∃ form, lookupOpcode cfg.opcodeOverrides op = some form ∧ form.Makes i := by
  obtain ⟨form, hform, hentry⟩ := exists_form_of_tableEntry h
  obtain ⟨r, hr, rfl⟩ := lookupOpcode_mem hform
  obtain ⟨-, hmakes⟩ := row_of_entry hr hentry
  exact ⟨_, hform, hmakes⟩

/-- A form reads an instruction that it makes from that instruction's operand bytes. -/
theorem decodeWith_of_makes {table : OpcodeOverrides} {op : Byte} {form : Form} {i : Instr}
    (hform : lookupOpcode table op = some form) (hmakes : form.Makes i) (rest : List Byte) :
    decodeWith table (op :: (i.operandBytes ++ rest)) = .ok (i, rest) := by
  have hregular := lookupOpcode_regular hform
  cases form with
  | implied j =>
    obtain rfl := hmakes
    simp [decodeWith, hform, show j.operandBytes = [] from hregular]
  | byte mk =>
    obtain ⟨b, rfl⟩ := hmakes
    obtain ⟨-, -, hbytes⟩ := hregular b
    simp [decodeWith, hform, hbytes]
  | word mk =>
    obtain ⟨w, rfl⟩ := hmakes
    obtain ⟨-, -, hbytes⟩ := hregular w
    simp [decodeWith, hform, hbytes]

/-- A byte with the entry of an instruction, before the instruction's operand bytes, decodes to it. -/
theorem decodeWith_operandBytes {cfg : Config} {op : Byte} {i : Instr}
    (h : tableEntry cfg op = some (i.operation, i.mode)) (rest : List Byte) :
    decodeWith cfg.opcodeOverrides (op :: (i.operandBytes ++ rest)) = .ok (i, rest) := by
  obtain ⟨form, hform, hmakes⟩ := exists_form_makes h
  exact decodeWith_of_makes hform hmakes rest

/-- What was decoded stood there as a byte with the instruction's entry and the instruction's operand bytes. -/
theorem bytes_of_decodeWith {cfg : Config} {bs rest : List Byte} {i : Instr}
    (h : decodeWith cfg.opcodeOverrides bs = .ok (i, rest)) :
    ∃ op, tableEntry cfg op = some (i.operation, i.mode) ∧ bs = op :: (i.operandBytes ++ rest) := by
  obtain ⟨op, form, hform, hbs, ho, hm⟩ := decodeWith_ok h
  exact ⟨op, by simp [← lookupOpcode_entry, hform, Form.entry, ho, hm], hbs⟩

/-- Two bytes after the opcode are enough for every form (R51). -/
theorem decodeWith_two_bytes {table : OpcodeOverrides} {op : Byte} {form : Form}
    (hform : lookupOpcode table op = some form) (b1 b2 : Byte) (rest : List Byte) :
    ∃ i rest', decodeWith table (op :: b1 :: b2 :: rest) = .ok (i, rest') := by
  cases form <;> simp [decodeWith, hform]

/-- The bytes an operand is read from give its value, and how many they are, by the mode alone (R51, R52). -/
theorem operand_of_operandBytes {i : Instr} {b1 b2 : Byte} {rest rest' : List Byte}
    (h : b1 :: b2 :: rest = i.operandBytes ++ rest') :
    i.operand = operandOf i.mode b1 b2 ∧ rest' = (b1 :: b2 :: rest).drop i.mode.operandBytes := by
  unfold Instr.operandBytes at h
  unfold Instr.mode
  generalize i.operand = o at h ⊢
  rcases o with _ | v | m
  · exact ⟨rfl, h.symm⟩
  · cases h
    exact ⟨rfl, rfl⟩
  · cases m <;> cases h <;> simp [operandOf, Operand.mode, Address.mode, Mode.operandBytes]

/-- A byte with an entry decodes to its operation and mode, with the operand the mode makes of the bytes after it. -/
theorem decodeWith_of_tableEntry {cfg : Config} {op : Byte} {o : Operation} {m : Mode}
    (h : tableEntry cfg op = some (o, m)) (b1 b2 : Byte) (rest : List Byte) :
    ∃ i, decodeWith cfg.opcodeOverrides (op :: b1 :: b2 :: rest) = .ok (i, (b1 :: b2 :: rest).drop m.operandBytes) ∧
      i.operation = o ∧ i.mode = m ∧ i.operand = operandOf m b1 b2 := by
  obtain ⟨form, hform, -⟩ := exists_form_of_tableEntry h
  obtain ⟨i, rest', hdecode⟩ := decodeWith_two_bytes hform b1 b2 rest
  obtain ⟨op', hentry, hbytes⟩ := bytes_of_decodeWith hdecode
  obtain ⟨rfl, htail⟩ := List.cons.inj hbytes
  obtain ⟨rfl, rfl⟩ : i.operation = o ∧ i.mode = m := by simpa [h, eq_comm] using hentry
  obtain ⟨hoperand, rfl⟩ := operand_of_operandBytes htail
  exact ⟨i, hdecode, rfl, rfl, hoperand⟩

theorem decodeWith_of_tableEntry_none {cfg : Config} {op : Byte} (h : tableEntry cfg op = none) (rest : List Byte) :
    decodeWith cfg.opcodeOverrides (op :: rest) = .error (.unknownOpcode op) := by
  simp [decodeWith, lookupOpcode_eq_none h]

/-- At the default table what was decoded stood there as its encoding (R50). -/
theorem eq_encode_of_decode {bs rest : List Byte} {i : Instr} (h : decode bs = .ok (i, rest)) :
    bs = encode i ++ rest := by
  obtain ⟨op, hentry, rfl⟩ := bytes_of_decodeWith (cfg := defaultConfig) h
  rw [opcode_eq_of_specTable_lookup hentry]
  rfl

/-! ## Settings of `OPCODE_TABLE` -/

/-- The setting that departs from the default at every byte, to the given map. -/
def settingOf (table : Byte → Option (Operation × Mode)) : OpcodeOverrides :=
  ((List.finRange 256).map BitVec.ofFin).map (fun op => (op, table op))

theorem settingOf_lookup (table : Byte → Option (Operation × Mode)) (op : Byte) :
    (settingOf table).lookup op = some (table op) :=
  List.lookup_graph table (List.mem_map.mpr ⟨op.toFin, List.mem_finRange _, rfl⟩)

/-- The setting of a map to pairs that R84 to R104 give has exactly the map's entries. -/
theorem tableEntry_settingOf {table : Byte → Option (Operation × Mode)}
    (h : ∀ (op : Byte) (p : Operation × Mode), table op = some p → pairing p.1 p.2 = true) (cfg : Config) (op : Byte) :
    tableEntry { cfg with opcodeOverrides := settingOf table } op = table op := by
  simp only [tableEntry, settingOf_lookup]
  cases hop : table op with
  | none => rfl
  | some p => exact Option.filter_some_pos (h op p hop)

/-! ## The obligations -/

/-- Settles O2: a byte with the entry of an instruction has the one row that makes it, and the row's form reads the
instruction from its operand bytes. -/
theorem decodeEncodeAgree : Obligations.DecodeEncodeAgree :=
  ⟨fun i rest => decodeWith_operandBytes (cfg := defaultConfig) (specTable_lookup_opcode i) rest,
    fun _ _ _ rest h => decodeWith_operandBytes h rest⟩

/-- Settles O3: a decoding consumes the opcode byte and the instruction's operand bytes, and at the default table no
other byte has the instruction's entry. -/
theorem encodeDecodeAgree : Obligations.EncodeDecodeAgree :=
  ⟨fun _ _ _ h => eq_encode_of_decode h, fun _ _ _ _ h => bytes_of_decodeWith h⟩

/-- Settles O4: dispatch follows the entry of the byte under every setting, and the default setting has the rows of
R55. -/
theorem opcodeTableIsSpecTable : Obligations.OpcodeTableIsSpecTable := by
  refine ⟨rfl, by decide, ?rows, ?decoded, rfl, ?settings, ?everyTable⟩
  case rows =>
    intro op o m b1 b2 rest hmem
    have hentry : tableEntry defaultConfig op = some (o, m) :=
      (defaultRow_entry op).symm.trans (defaultRow_of_mem_specTable _ hmem)
    obtain ⟨i, hdecode, ho, hm, hoperand⟩ := decodeWith_of_tableEntry hentry b1 b2 rest
    rw [← ho, ← hm] at hentry
    exact ⟨i, hdecode, (opcode_eq_of_specTable_lookup hentry).symm, ho, hm, hoperand⟩
  case decoded =>
    intro _ _ i _
    exact mem_specTable_of_lookup (specTable_lookup_opcode i)
  case settings =>
    intro cfg op b1 b2 rest
    split
    next o m h => exact decodeWith_of_tableEntry h b1 b2 rest
    next h => exact decodeWith_of_tableEntry_none h (b1 :: b2 :: rest)
  case everyTable =>
    intro table h
    exact ⟨settingOf table, tableEntry_settingOf h⟩

end Sys2Proof
end

section
/-! The parameters of 00_scope.md R7: no step and no action of the host changes them, and what a departure from the
default base cycles replaces. -/

namespace Sys2Proof.Machine

open Sys2Proof.Safety Sys2Proof.Claims

@[simp] theorem readEffect_config (op : Operation) (s : State) (v : Byte) : (readEffect op s v).config = s.config := by
  cases op <;> rfl

@[simp] theorem impliedEffect_config (op : Operation) (s : State) : (impliedEffect op s).config = s.config := by
  cases op <;> rfl

/-- Every instruction completes (R106) with the parameters it started with. -/
theorem exec_keeps_config (i : Instr) (s : State) : ∃ t, exec i s = .next t ∧ t.config = s.config := by
  obtain ⟨o, -, -, hexec⟩ | ⟨m, u, -, -, -, hexec⟩ | ⟨-, -, hexec⟩ := exec_shape i s
  · exact ⟨_, hexec.trans (readOperation_eq ..), by simp⟩
  · exact ⟨_, hexec.trans (writeOperation_eq ..), by simp⟩
  · exact ⟨_, hexec.trans (impliedOperation_eq ..), by simp⟩

theorem fetchInstr_instr_config {s t : State} {i : Instr} (h : fetchInstr s = .instr i t) : t.config = s.config := by
  rw [fetchInstr_instr_frame h]
  rfl

/-- A step leaves a state, completed or failed, with the parameters it started with. -/
theorem stateAfter_step_config (s : State) : ∃ t, stateAfter (step s) = some t ∧ t.config = s.config := by
  obtain ⟨i, t, hfetch, hstep⟩ | ⟨-, hstep⟩ := step_cases s
  · obtain ⟨u, hexec, hconfig⟩ := exec_keeps_config i t
    exact ⟨u, by rw [hstep, hexec]; rfl, hconfig.trans (fetchInstr_instr_config hfetch)⟩
  · rw [hstep]
    exact ⟨_, rfl, rfl⟩

theorem hostAct_config (act : HostAction) (s : State) : (hostAct act s).config = s.config := by
  cases act with
  | writeRegister r v => cases r <;> rfl
  | writeFlag f v => cases f <;> rfl
  | reset | writePc | setStatus | writeByte | writeWord => rfl

/-- Settles O47: the three shapes of an instruction, the fetch, the failure and each host action keep the parameters. -/
theorem parametersNeverChange : Obligations.ParametersNeverChange := by
  refine ⟨fun s t h => ?_, hostAct_config⟩
  obtain ⟨u, hu, hconfig⟩ := stateAfter_step_config s
  obtain rfl := Option.some.inj (hu.symm.trans h)
  exact hconfig

theorem baseCycles_default : ∀ p ∈ specCycles, baseCycles defaultConfig p.1 = p.2 := by decide

/-- Settles O14: the 65 costs are computed, and the first entry of an opcode is the one looked up. -/
theorem defaultCycleTable : Obligations.DefaultCycleTable := by
  refine ⟨rfl, fun op n h => baseCycles_default (op, n) h, fun cfg op other n => ?_⟩
  by_cases h : other = op
  · simp [baseCycles, h]
  · simp [baseCycles, List.lookup_cons, beq_false_of_ne h, h]

end Sys2Proof.Machine
end

section
/-! The packed status byte (10_state.md R22, R23): its bits one by one, and what unpacking it gives back. -/

namespace Sys2Proof.Machine

theorem getElem_ite_zero (p : Bool) (mask : Byte) (k : Nat) (hk : k < 8) :
    (if p then mask else 0x00)[k] = (p && mask[k]) := by
  cases p <;> simp

/-- Every bit of the packed byte, the disjunction of its eight masked parts (R22). -/
theorem getElem_getStatus (s : State) (k : Nat) (hk : k < 8) :
    (getStatus s)[k] =
      (s.c && (0x01 : Byte)[k] || s.z && (0x02 : Byte)[k] || s.i && (0x04 : Byte)[k] || s.d && (0x08 : Byte)[k] ||
        s.b && (0x10 : Byte)[k] || s.config.statusBit5 && (0x20 : Byte)[k] || s.v && (0x40 : Byte)[k] ||
        s.n && (0x80 : Byte)[k]) := by
  simp only [getStatus, BitVec.getElem_or, getElem_ite_zero]

@[simp] theorem getStatus_carry (s : State) : (getStatus s)[0] = s.c := by simp [getElem_getStatus]
@[simp] theorem getStatus_zero (s : State) : (getStatus s)[1] = s.z := by simp [getElem_getStatus]
@[simp] theorem getStatus_interruptDisable (s : State) : (getStatus s)[2] = s.i := by simp [getElem_getStatus]
@[simp] theorem getStatus_decimalMode (s : State) : (getStatus s)[3] = s.d := by simp [getElem_getStatus]
@[simp] theorem getStatus_break (s : State) : (getStatus s)[4] = s.b := by simp [getElem_getStatus]
@[simp] theorem getStatus_bit5 (s : State) : (getStatus s)[5] = s.config.statusBit5 := by simp [getElem_getStatus]
@[simp] theorem getStatus_overflow (s : State) : (getStatus s)[6] = s.v := by simp [getElem_getStatus]
@[simp] theorem getStatus_negative (s : State) : (getStatus s)[7] = s.n := by simp [getElem_getStatus]

/-- Unpacking reads back what packing wrote (R22, R23). -/
@[simp] theorem setStatus_getStatus (s : State) : s.setStatus (getStatus s) = s := by
  simp only [State.setStatus, getStatus_carry, getStatus_zero, getStatus_interruptDisable, getStatus_decimalMode,
    getStatus_break, getStatus_overflow, getStatus_negative]

/-- Packing what was unpacked gives the byte back in all bits but the unused one (R22, R23). -/
theorem getStatus_setStatus (s : State) (b : Byte) :
    getStatus (s.setStatus b) = (b &&& 0xDF) ||| (if s.config.statusBit5 then 0x20 else 0x00) := by
  ext k hk
  rw [BitVec.getElem_or, BitVec.getElem_and, getElem_ite_zero]
  interval_cases k <;> simp

/-- Settles O24: each bit of the packed byte is read off alone; memory is no part of it. -/
theorem statusBytePacking : Obligations.StatusBytePacking := by
  refine ⟨fun s => by simp, fun _ _ => rfl, fun s h => ?_⟩
  simp [getStatus, h]

/-- Settles O25: unpacking after packing gives the flags back, and packing after unpacking all bits but bit 5. -/
theorem statusByteUnpacking : Obligations.StatusByteUnpacking :=
  ⟨fun _ _ => rfl, setStatus_getStatus, getStatus_setStatus⟩

end Sys2Proof.Machine
end

section
/-! The stack (10_state.md R15; 43_stack.md R96 to R101): a push writes one byte of page 1, and the pull after it reads
that byte back. -/

namespace Sys2Proof.Machine

/-- The stack address keeps SP in its low byte: page 1 is never left (R15). -/
theorem stackAddress_toNat (sp : Byte) : (stackAddress sp).toNat = 256 + sp.toNat := by
  have := sp.isLt
  simp [stackAddress]
  omega

/-- Everything `stackPush` does to a later read (R96). -/
theorem readByte_stackPush_eq_ite (s : State) (u : Byte) (addr : Word) :
    readByte (stackPush s u) addr = if addr = stackAddress s.sp then u else readByte s addr :=
  readByte_writeByte_eq_ite s (stackAddress s.sp) addr u

/-- A pull after a push gives the pushed byte and the old SP (R96, R97). -/
@[simp] theorem stackPop_stackPush (s : State) (u : Byte) :
    stackPop (stackPush s u) = (u, writeByte s (stackAddress s.sp) u) := by
  rw [stackPop_eq, readByte_stackPush_eq_ite, stackPush_eq]
  simp [writeByte, State.setMem]

/-! The four stack instructions answer the effect of R98 to R101, with some cycle count in `result`. -/

theorem exec_pha (s : State) : ∃ r, exec .pha s = .next ((stackPush s s.a).setResult r) := ⟨_, rfl⟩
theorem exec_php (s : State) : ∃ r, exec .php s = .next ((stackPush s (getStatus s)).setResult r) := ⟨_, rfl⟩
theorem exec_pla (s : State) : ∃ r, exec .pla s = .next ((pullA s).setResult r) := ⟨_, rfl⟩
theorem exec_plp (s : State) : ∃ r, exec .plp s = .next ((pullStatus s).setResult r) := ⟨_, rfl⟩

theorem pullA_setResult_stackPush (s : State) (u : Byte) (r : Option StepResult) :
    pullA ((stackPush s u).setResult r) =
      (((writeByte s (stackAddress s.sp) u).setA u).setZN u).setResult r := by
  have hpull : pullA ((stackPush s u).setResult r) = (pullA (stackPush s u)).setResult r := rfl
  rw [hpull, pullA, stackPop_stackPush]

theorem pullStatus_setResult_stackPush (s : State) (u : Byte) (r : Option StepResult) :
    pullStatus ((stackPush s u).setResult r) =
      ((writeByte s (stackAddress s.sp) u).setStatus u).setResult r := by
  have hpull : pullStatus ((stackPush s u).setResult r) = (pullStatus (stackPush s u)).setResult r := rfl
  rw [hpull, pullStatus, stackPop_stackPush]

/-- Settles O49: the pull finds the pushed byte and SP; the flags come back because unpacking undoes packing. -/
theorem pullUndoesPush : Obligations.PullUndoesPush := by
  refine ⟨fun s => ?accumulator, fun s => ?status⟩
  case accumulator =>
    obtain ⟨_, hpush⟩ := exec_pha s
    obtain ⟨_, hpull⟩ := exec_pla _
    rw [pullA_setResult_stackPush] at hpull
    refine ⟨_, _, hpush, hpull, ?_⟩
    simp +contextual [readByte_writeByte_eq_ite, stackAddress]
  case status =>
    obtain ⟨_, hpush⟩ := exec_php s
    obtain ⟨_, hpull⟩ := exec_plp _
    rw [pullStatus_setResult_stackPush] at hpull
    refine ⟨_, _, hpush, hpull, ?_⟩
    simp +contextual [readByte_writeByte_eq_ite, stackAddress]

/-- A push leaves every byte outside page 1 as it was (R96). -/
theorem readByte_stackPush_outside_page_one (s : State) (u : Byte) {addr : Word}
    (h : addr.toNat < 0x0100 ∨ 0x01FF < addr.toNat) : readByte (stackPush s u) addr = readByte s addr := by
  have hne : addr ≠ stackAddress s.sp := by
    rintro rfl
    have := s.sp.isLt
    rw [stackAddress_toNat] at h
    omega
  rw [readByte_stackPush_eq_ite, if_neg hne]

/-- Settles O50: the stack address is 256 + SP, so a push misses every byte outside page 1. -/
theorem stackNeverLeavesPageOne : Obligations.StackNeverLeavesPageOne := by
  refine ⟨stackAddress_toNat, ?_⟩
  rintro i s t a (rfl | rfl) hexec hout <;> cases hexec
  · exact readByte_stackPush_outside_page_one s s.a hout
  · exact readByte_stackPush_outside_page_one s (getStatus s) hout

end Sys2Proof.Machine
end

section
/-! Reset and the moves of the host (10_state.md R27, R30; 70_reset_and_hazards.md R117; 60_exceptions.md R114). -/

namespace Sys2Proof.Machine

@[simp] theorem readByte_writeByte_same (s : State) (addr : Word) (u : Byte) :
    readByte (writeByte s addr u) addr = u := by
  rw [readByte_writeByte_eq_ite, if_pos rfl]

/-- A word reads as it was written, at the wrap too (R35, R36). -/
@[simp] theorem readWord_writeWord_same (s : State) (addr w : Word) : readWord (writeWord s addr w) addr = w := by
  have hne : addr ≠ addr + 1 := by simp
  simp only [readWord, writeWord, readByte_writeByte_same]
  rw [readByte_writeByte_eq_ite, if_neg hne, readByte_writeByte_same, joinWord_halves]

/-- A memory that lists nothing reads 0x0000 everywhere (assumption 1). -/
theorem readWord_of_mem_nil {s : State} (h : s.mem = []) (addr : Word) : readWord s addr = 0x0000 := by
  simp only [readWord, readByte, h, Memory.load]
  decide

/-- Settles O53: the packed byte has the seven flags clear, so only bit 5 is left of it. -/
theorem resetValues : Obligations.ResetValues := by
  intro s
  refine ⟨rfl, rfl, rfl, rfl, rfl, rfl, rfl, rfl, rfl, rfl, rfl, rfl, ?_, rfl⟩
  have hstatus : getStatus (resetCpu s) = getStatus (s.setStatus 0x00) := rfl
  simp [hstatus, getStatus_setStatus]

/-- Settles O54: the reset vector of an empty memory is 0x0000. -/
theorem resetStateIsAReset : Obligations.ResetStateIsAReset := by
  intro s hmem hconfig
  simp only [resetCpu, readWord_of_mem_nil hmem, hmem, hconfig]
  rfl

/-- Settles O55: each move is its operation, and a written byte or word reads back. -/
theorem hostAccessors : Obligations.HostAccessors :=
  ⟨fun _ _ => ⟨rfl, rfl, rfl, rfl, rfl⟩,
    fun _ _ => rfl,
    fun _ _ => ⟨rfl, rfl, rfl, rfl, rfl, rfl, rfl⟩,
    fun s a w u => ⟨rfl, readByte_writeByte_same s a u, rfl, readWord_writeWord_same s a w, rfl⟩,
    fun _ => ⟨rfl, rfl, rfl, rfl, rfl, rfl, rfl, rfl, rfl, rfl, rfl⟩⟩

/-- Settles O59: the memory of the start state lists nothing. -/
theorem resetMemoryIsCanonical : Obligations.ResetMemoryIsCanonical := Memory.nil_wf

end Sys2Proof.Machine
end

section
/-! Every instruction as one equation: what its operand resolves to, and what its operation does with that
(40_dispatch_addressing.md R61, R65). -/

namespace Sys2Proof.Machine

open Sys2Proof.Claims

/-- What an instruction takes from its operand: the byte a read operation reads, the address a write operation writes,
and the cycle count (R65, R78 to R80). A part that the operation has no use for is 0. -/
structure Resolved where
  value : Byte
  address : Word
  cycles : Nat

/-- What the operand of an instruction resolves to in the state whose PC is past its bytes (R66 to R81). -/
def resolved (i : Instr) (s : State) : Resolved :=
  match i.operand with
  | none => { value := 0x00, address := 0x0000, cycles := cycles s.config s.opcode false false }
  | some (.immediate u) => { value := u, address := 0x0000, cycles := cycles s.config s.opcode false false }
  | some (.memory m) =>
    { value := operandByte (.memory m) s
      address := (resolve m s).ea
      cycles := cycles s.config s.opcode (resolve m s).crossed (isStore i) }

/-- What an operation does: a store, or the effect it has as a read or an implied operation (the other of these two
does nothing). -/
def effect (op : Operation) (s : State) (x : Resolved) : State :=
  match storedRegister op s with
  | some u => writeByte s x.address u
  | none => impliedEffect op (readEffect op s x.value)

/-- Every instruction completes, with the effect of its operation and the cycle count in `result` (R106). -/
theorem exec_eq (i : Instr) (s : State) :
    exec i s = .next ((effect i.operation s (resolved i s)).setResult (some (.ok (resolved i s).cycles))) := by
  cases i <;> rfl

theorem eq_of_exec_next {i : Instr} {s t : State} (h : exec i s = .next t) :
    t = (effect i.operation s (resolved i s)).setResult (some (.ok (resolved i s).cycles)) := by
  rw [exec_eq] at h
  exact (Host.Outcome.next.inj h).symm

/-- An operand reads X, Y, the memory, the parameters and the fetched opcode byte, nothing else. -/
theorem resolved_congr {s t : State} (hx : s.x = t.x) (hy : s.y = t.y) (hm : s.mem = t.mem)
    (hc : s.config = t.config) (ho : s.opcode = t.opcode) (i : Instr) : resolved i s = resolved i t := by
  simp only [resolved, operandByte_congr hx hy hm hc, resolve_congr hx hy hm hc, hc, ho]

/-! ## The register an operation gives a new value, from which Z and N come (R26) -/

/-- The one of A, X, Y that an operation writes. All that write one set Z and N from it. -/
def destination (op : Operation) : Option ByteRegister :=
  match op with
  | .lda | .txa | .tya | .pla | .and | .eor | .ora => some .a
  | .ldx | .tax | .tsx => some .x
  | .ldy | .tay => some .y
  | .sta | .stx | .sty | .txs | .pha | .php | .plp => none

theorem destination_eq_a (op : Operation) :
    destination op = some .a ↔ op ∈ [.lda, .txa, .tya, .pla, .and, .eor, .ora] := by
  cases op <;> decide

theorem destination_eq_x (op : Operation) : destination op = some .x ↔ op ∈ [.ldx, .tax, .tsx] := by
  cases op <;> decide

theorem destination_eq_y (op : Operation) : destination op = some .y ↔ op ∈ [.ldy, .tay] := by
  cases op <;> decide

theorem effect_a {op : Operation} (h : destination op ≠ some .a) (s : State) (x : Resolved) :
    (effect op s x).a = s.a := by
  cases op
  case lda | txa | tya | pla | and | eor | ora => exact absurd rfl h
  all_goals rfl

theorem effect_x {op : Operation} (h : destination op ≠ some .x) (s : State) (x : Resolved) :
    (effect op s x).x = s.x := by
  cases op
  case ldx | tax | tsx => exact absurd rfl h
  all_goals rfl

theorem effect_y {op : Operation} (h : destination op ≠ some .y) (s : State) (x : Resolved) :
    (effect op s x).y = s.y := by
  cases op
  case ldy | tay => exact absurd rfl h
  all_goals rfl

theorem effect_sp {op : Operation} (h : op ∉ [.txs, .pha, .php, .pla, .plp]) (s : State) (x : Resolved) :
    (effect op s x).sp = s.sp := by
  cases op
  case txs | pha | php | pla | plp => simp at h
  all_goals rfl

@[simp] theorem effect_pc (op : Operation) (s : State) (x : Resolved) : (effect op s x).pc = s.pc := by
  cases op <;> rfl

@[simp] theorem effect_config (op : Operation) (s : State) (x : Resolved) : (effect op s x).config = s.config := by
  cases op <;> rfl

theorem effect_sameCidbv {op : Operation} (h : op ≠ .plp) (s : State) (x : Resolved) :
    SameCidbv (effect op s x) s := by
  cases op
  case plp => exact absurd rfl h
  all_goals exact ⟨rfl, rfl, rfl, rfl, rfl⟩

/-- Z and N come from the new value of the destination (R24). -/
theorem effect_zn {op : Operation} {r : ByteRegister} (h : destination op = some r) (s : State) (x : Resolved) :
    (effect op s x).z = ((effect op s x).getRegister r == 0x00) ∧
      (effect op s x).n = ((effect op s x).getRegister r)[7] := by
  cases op <;> cases h <;> exact ⟨rfl, rfl⟩

theorem effect_sameZn {op : Operation} (h : destination op = none) (hplp : op ≠ .plp) (s : State) (x : Resolved) :
    SameZn (effect op s x) s := by
  cases op
  case plp => exact absurd rfl hplp
  case sta | stx | sty | txs | pha | php => exact ⟨rfl, rfl⟩
  all_goals cases h

end Sys2Proof.Machine
end

section
/-! A step as decode and then exec (40_dispatch_addressing.md R61 to R64): which bytes it fetches, and that nothing but
PC, memory and the parameters decides what it executes. -/

namespace Sys2Proof.Machine

open Sys2Proof.Claims

theorem instr_wf (i : Instr) : i.wf = true := by cases i <;> rfl

theorem length_eq_operandBytes (i : Instr) : i.length = 1 + i.operandBytes.length := by
  unfold Instr.length Instr.mode Instr.operandBytes
  rcases i.operand with _ | _ | m
  · rfl
  · rfl
  · cases m <;> rfl

/-- The state in which `exec` runs an instruction fetched at PC (R61). -/
def afterFetch (i : Instr) (s : State) : State :=
  (s.setPc (s.pc + BitVec.ofNat 16 i.length)).setOpcode (readByte s s.pc)

theorem bytesAt_of_mem {s t : State} (h : s.mem = t.mem) (addr : Word) (n : Nat) :
    bytesAt s addr n = bytesAt t addr n := by
  induction n generalizing addr with
  | zero => rfl
  | succ n ih => rw [bytesAt, bytesAt, readByte_of_mem h, ih]

/-- The fetch reads the instruction that the three bytes at PC decode to, and moves PC past its bytes (R50). -/
theorem fetchInstr_of_decodeWith {s : State} {i : Instr} {rest : List Byte}
    (h : decodeWith s.config.opcodeOverrides (bytesAt s s.pc 3) = .ok (i, rest)) :
    fetchInstr s = .instr i (afterFetch i s) := by
  simp only [bytesAt] at h
  cases hl : lookupOpcode s.config.opcodeOverrides (readByte s s.pc) with
  | none => simp [decodeWith, hl] at h
  | some form =>
    have hregular := lookupOpcode_regular hl
    rw [fetchInstr_form hl, afterFetch, length_eq_operandBytes]
    cases form with
    | implied j =>
      simp only [decodeWith, hl, Except.ok.injEq, Prod.mk.injEq] at h
      obtain ⟨rfl, -⟩ := h
      simp [show j.operandBytes = [] from hregular]
    | byte mk =>
      simp only [decodeWith, hl, Except.ok.injEq, Prod.mk.injEq] at h
      obtain ⟨rfl, -⟩ := h
      obtain ⟨-, -, hbytes⟩ := hregular (readByte s (s.pc + 1))
      rw [hbytes]
      simp [BitVec.add_assoc]
    | word mk =>
      simp only [decodeWith, hl, Except.ok.injEq, Prod.mk.injEq] at h
      obtain ⟨rfl, -⟩ := h
      obtain ⟨-, -, hbytes⟩ := hregular (readWord s (s.pc + 1))
      rw [← readWord, hbytes]
      simp [BitVec.add_assoc]

/-- A step runs the instruction that the bytes at PC decode to (R61). -/
theorem step_of_decodeWith {s : State} {i : Instr} {rest : List Byte}
    (h : decodeWith s.config.opcodeOverrides (bytesAt s s.pc 3) = .ok (i, rest)) :
    step s = exec i (afterFetch i s) := by
  simp only [step, fetchInstr_of_decodeWith h]

theorem step_of_lookupOpcode_none {s : State}
    (h : lookupOpcode s.config.opcodeOverrides (readByte s s.pc) = none) :
    step s = raiseUnknownOpcode ((s.setPc (s.pc + 1)).setOpcode (readByte s s.pc)) (readByte s s.pc) := by
  simp only [step, fetchInstr_unknown h]

/-- Two states with the same PC, memory and parameters execute one instruction, the one that the entry at PC names, or
fail alike. -/
theorem step_cases_of_same_fetch {s t : State} (hpc : s.pc = t.pc) (hmem : s.mem = t.mem)
    (hconfig : s.config = t.config) :
    (∃ i, entryAtPc s = some (i.operation, i.mode) ∧ step s = exec i (afterFetch i s) ∧
      step t = exec i (afterFetch i t)) ∨
    (step s = raiseUnknownOpcode ((s.setPc (s.pc + 1)).setOpcode (readByte s s.pc)) (readByte s s.pc) ∧
      step t = raiseUnknownOpcode ((t.setPc (t.pc + 1)).setOpcode (readByte t t.pc)) (readByte t t.pc)) := by
  have hbytes : bytesAt s s.pc 3 = bytesAt t t.pc 3 := hpc ▸ bytesAt_of_mem hmem s.pc 3
  have hop : readByte s s.pc = readByte t t.pc := hpc ▸ readByte_of_mem hmem s.pc
  cases hl : lookupOpcode s.config.opcodeOverrides (readByte s s.pc) with
  | none => exact .inr ⟨step_of_lookupOpcode_none hl, step_of_lookupOpcode_none (by rw [← hconfig, ← hop, hl])⟩
  | some form =>
    obtain ⟨i, rest, hdecode⟩ := decodeWith_two_bytes hl (readByte s (s.pc + 1)) (readByte s (s.pc + 1 + 1)) []
    obtain ⟨op, hentry, hcons⟩ := bytes_of_decodeWith hdecode
    obtain ⟨rfl, -⟩ := List.cons.inj hcons
    have hdecode_t : decodeWith t.config.opcodeOverrides (bytesAt t t.pc 3) = .ok (i, rest) := by
      rw [← hconfig, ← hbytes]
      exact hdecode
    exact .inl ⟨i, hentry, step_of_decodeWith hdecode, step_of_decodeWith hdecode_t⟩

/-- Settles O6: the fetch reads what the bytes at PC decode to, and every instruction is well-formed. -/
theorem stepRunsDecodedInstruction : Obligations.StepRunsDecodedInstruction :=
  fun _ i _ h => ⟨instr_wf i, step_of_decodeWith h⟩

end Sys2Proof.Machine
end

section
/-! Which flags and registers an instruction writes, and that it reads no flag unless it is PHP (10_state.md R12 to R15,
R19 to R26). -/

namespace Sys2Proof.Machine

open Sys2Proof.Claims

theorem operation_eq_plp {i : Instr} : i.operation = .plp ↔ i = .plp := by
  cases i <;> simp [Instr.operation]

theorem mode_of_operation_php {i : Instr} (h : i.operation = .php) : i.mode = .implied := by
  cases i
  case php => rfl
  all_goals cases h

theorem destination_eq_none {op : Operation} :
    destination op = none ∧ op ≠ .plp ↔ op ∈ [.sta, .stx, .sty, .txs, .pha, .php] := by
  cases op <;> decide

theorem destination_ne_none {op : Operation} :
    destination op ≠ none ↔
      op ∈ [.lda, .ldx, .ldy, .tax, .tay, .txa, .tya, .tsx, .pla, .and, .eor, .ora] := by
  cases op <;> decide

/-- Settles O42: Z and N come from the destination of the operation, and PLP alone writes another flag. -/
theorem flagWriteTable : Obligations.FlagWriteTable := by
  refine ⟨fun i s t hexec => ⟨fun hplp => ?others, ?plp, ?fromA, ?fromX, ?fromY, ?kept⟩, ?failed⟩
  case plp =>
    rintro rfl
    cases hexec
    exact ⟨_, rfl, rfl, rfl, rfl, rfl, rfl, rfl, rfl⟩
  case failed =>
    intro s u op hstep
    obtain ⟨i, -, hs, -⟩ | ⟨hs, -⟩ := step_cases_of_same_fetch (s := s) rfl rfl rfl
    · rw [hs, exec_eq] at hstep
      cases hstep
    · rw [hs] at hstep
      cases hstep
      exact ⟨rfl, rfl, rfl, rfl, rfl, rfl, rfl⟩
  all_goals obtain rfl := eq_of_exec_next hexec
  case others => exact effect_sameCidbv (mt operation_eq_plp.mp hplp) s _
  case fromA => exact fun h => effect_zn ((destination_eq_a _).mpr h) s _
  case fromX => exact fun h => effect_zn ((destination_eq_x _).mpr h) s _
  case fromY => exact fun h => effect_zn ((destination_eq_y _).mpr h) s _
  case kept =>
    intro h
    obtain ⟨hnone, hplp⟩ := destination_eq_none.mpr h
    exact effect_sameZn hnone hplp s _

/-- Settles O43: A, X and Y change only as the destination of the operation, SP only by TXS and the stack. -/
theorem registerWriteFrame : Obligations.RegisterWriteFrame := by
  intro i s t hexec
  obtain rfl := eq_of_exec_next hexec
  exact ⟨fun h => effect_a (mt (destination_eq_a _).mp h) s _, fun h => effect_x (mt (destination_eq_x _).mp h) s _,
    fun h => effect_y (mt (destination_eq_y _).mp h) s _, fun h => effect_sp h s _, effect_pc _ s _,
    effect_config _ s _⟩

/-! ## The returned value -/

theorem effect_setResult (op : Operation) (s : State) (r : Option StepResult) (x : Resolved) :
    effect op (s.setResult r) x = (effect op s x).setResult r := by
  cases op <;> rfl

theorem exec_setResult (i : Instr) (s : State) (r : Option StepResult) : exec i (s.setResult r) = exec i s := by
  rw [exec_eq, exec_eq, resolved_congr (s := s.setResult r) (t := s) rfl rfl rfl rfl rfl, effect_setResult]
  rfl

/-- Settles O46: a fetch writes the opcode field over, and an instruction or the failure writes the result over. -/
theorem returnedValueIsNeverRead : Obligations.ReturnedValueIsNeverRead := by
  intro s r op
  obtain ⟨i, -, hother, hs⟩ | ⟨hother, hs⟩ :=
    step_cases_of_same_fetch (s := { s with result := r, opcode := op }) (t := s) rfl rfl rfl
  · rw [hother, hs]
    exact exec_setResult i (afterFetch i s) r
  · rw [hother, hs]
    rfl

/-! ## States that differ at most in the flags -/

/-- Such a state is the other with a status byte unpacked into its flags. -/
theorem exists_setStatus_of_sameButFlags {s t : State} (h : SameButFlags s t) : ∃ p, t = s.setStatus p := by
  obtain ⟨ha, hx, hy, hsp, hpc, hmem, hresult, hopcode, hconfig⟩ := h
  refine ⟨getStatus t, ?_⟩
  calc t = t.setStatus (getStatus t) := (setStatus_getStatus t).symm
    _ = s.setStatus (getStatus t) := by
      simp only [State.setStatus, ha, hx, hy, hsp, hpc, hmem, hresult, hopcode, hconfig]

theorem effect_sameButFlags {op : Operation} (h : op ≠ .php) (s : State) (p : Byte) (x : Resolved) :
    SameButFlags (effect op s x) (effect op (s.setStatus p) x) := by
  cases op
  case php => exact absurd rfl h
  all_goals exact ⟨rfl, rfl, rfl, rfl, rfl, rfl, rfl, rfl, rfl⟩

theorem setResult_sameButFlags {s t : State} (h : SameButFlags s t) (r : Option StepResult) :
    SameButFlags (s.setResult r) (t.setResult r) := by
  obtain ⟨ha, hx, hy, hsp, hpc, hmem, -, hopcode, hconfig⟩ := h
  exact ⟨ha, hx, hy, hsp, hpc, hmem, rfl, hopcode, hconfig⟩

/-- A register is no flag. -/
theorem getRegister_of_sameButFlags {s t : State} (h : SameButFlags s t) (r : ByteRegister) :
    s.getRegister r = t.getRegister r := by
  obtain ⟨ha, hx, hy, hsp, -⟩ := h
  cases r <;> assumption

/-- What the flags are after the same operation in two states `s` and `t` that differ at most in the flags: the written
ones are equal, every other one is as it was in its own start (R21). -/
def FlagsFollow (op : Operation) (s t u w : State) : Prop :=
  if op = .plp then SameCidbv u w ∧ SameZn u w
  else SameCidbv u s ∧ SameCidbv w t ∧
    (if op ∈ [.lda, .ldx, .ldy, .tax, .tay, .txa, .tya, .tsx, .pla, .and, .eor, .ora] then SameZn u w
      else SameZn u s ∧ SameZn w t)

theorem effect_flagsFollow {op : Operation} (h : op ≠ .php) (s : State) (p : Byte) (x : Resolved) :
    FlagsFollow op s (s.setStatus p) (effect op s x) (effect op (s.setStatus p) x) := by
  unfold FlagsFollow
  split_ifs with hplp hzn
  · subst hplp
    exact ⟨⟨rfl, rfl, rfl, rfl, rfl⟩, rfl, rfl⟩
  · refine ⟨effect_sameCidbv hplp s x, effect_sameCidbv hplp _ x, ?_⟩
    obtain ⟨r, hr⟩ := Option.ne_none_iff_exists'.mp (destination_ne_none.mpr hzn)
    have hreg := getRegister_of_sameButFlags (effect_sameButFlags h s p x) r
    obtain ⟨hz, hn⟩ := effect_zn hr s x
    obtain ⟨hz', hn'⟩ := effect_zn hr (s.setStatus p) x
    exact ⟨by rw [hz, hz', hreg], by rw [hn, hn', hreg]⟩
  · have hnone : destination op = none := not_not.mp (mt destination_ne_none.mp hzn)
    exact ⟨effect_sameCidbv hplp s x, effect_sameCidbv hplp _ x, effect_sameZn hnone hplp s x,
      effect_sameZn hnone hplp _ x⟩

/-- No instruction but PHP reads a flag: what it leaves in two states that differ at most in the flags. -/
theorem exec_sameButFlags {i : Instr} (hphp : i.operation ≠ .php) {s t u : State} (h : SameButFlags s t)
    (hexec : exec i s = .next u) :
    ∃ w, exec i t = .next w ∧ SameButFlags u w ∧ FlagsFollow i.operation s t u w := by
  obtain ⟨p, rfl⟩ := exists_setStatus_of_sameButFlags h
  obtain rfl := eq_of_exec_next hexec
  have hresolved : resolved i (s.setStatus p) = resolved i s := resolved_congr rfl rfl rfl rfl rfl i
  refine ⟨_, exec_eq i _, ?_⟩
  rw [hresolved]
  exact ⟨setResult_sameButFlags (effect_sameButFlags hphp s p _) _, effect_flagsFollow hphp s p _⟩

theorem afterFetch_sameButFlags {s t : State} (h : SameButFlags s t) (i : Instr) :
    SameButFlags (afterFetch i s) (afterFetch i t) := by
  obtain ⟨p, rfl⟩ := exists_setStatus_of_sameButFlags h
  exact ⟨rfl, rfl, rfl, rfl, rfl, rfl, rfl, rfl, rfl⟩

/-- Settles O45: both states fetch alike, the flags that follow are those of the instruction, and the failure writes
none. -/
theorem flagsAreReadByPhpAlone : Obligations.FlagsAreReadByPhpAlone := by
  intro s t h hentry
  obtain ⟨p, rfl⟩ := exists_setStatus_of_sameButFlags h
  obtain ⟨i, hi, hs, ht⟩ | ⟨hs, ht⟩ := step_cases_of_same_fetch (s := s) (t := s.setStatus p) rfl rfl rfl
  · have hphp : i.operation ≠ .php := fun hop => hentry (by rw [hi, hop, mode_of_operation_php hop])
    rw [hs, ht]
    refine ⟨fun u hu => ?_, fun op u hu => ?_⟩
    · obtain ⟨w, hw, hsame, hflags⟩ := exec_sameButFlags hphp (afterFetch_sameButFlags h i) hu
      exact ⟨w, i.operation, i.mode, hi, hw, hsame, hflags⟩
    · rw [exec_eq] at hu
      cases hu
  · rw [hs, ht]
    refine ⟨fun u hu => ?_, fun op u hu => ?_⟩
    · cases hu
    · cases hu
      exact ⟨_, rfl, ⟨rfl, rfl, rfl, rfl, rfl, rfl, rfl, rfl, rfl⟩, ⟨rfl, rfl, rfl, rfl, rfl⟩, ⟨rfl, rfl⟩,
        ⟨rfl, rfl, rfl, rfl, rfl⟩, rfl, rfl⟩

end Sys2Proof.Machine
end

section
/-! What an instruction, a step and a host action do to memory (20_memory.md R32 to R49): an instruction writes one byte
at most, at the address `stored` names, and the canonical form of the store stays. -/

namespace Sys2Proof.Machine

open Sys2Proof.Safety Sys2Proof.Claims

/-! ## The one write of an instruction, and the canonical form along a run -/

/-- An instruction writes the byte that `stored` names, or none (R79, R96). -/
theorem mem_of_exec_next {i : Instr} {s t : State} (h : exec i s = .next t) :
    t.mem = ((stored i s).elim s fun p => writeByte s p.1 p.2).mem := by
  obtain rfl := eq_of_exec_next h
  cases i <;> rfl

theorem inv_of_exec_next {i : Instr} {s t : State} (hs : Inv s) (h : exec i s = .next t) : Inv t := by
  show Memory.wf t.mem
  rw [mem_of_exec_next h]
  cases stored i s with
  | none => exact hs
  | some p => exact writeByte_wf hs p.1 p.2

theorem fetchInstr_instr_mem {s t : State} {i : Instr} (h : fetchInstr s = .instr i t) : t.mem = s.mem := by
  rw [fetchInstr_instr_frame h]
  rfl

/-- A fetch writes no memory, nor does the failure, so the canonical form is lost only if an instruction loses it. -/
theorem inv_of_stateAfter_step {s t : State} (hs : Inv s) (h : stateAfter (step s) = some t) : Inv t := by
  obtain ⟨i, u, hfetch, hstep⟩ | ⟨-, hstep⟩ := step_cases s
  · have hu : Memory.wf u.mem := by
      rw [fetchInstr_instr_mem hfetch]
      exact hs
    rw [hstep, exec_eq] at h
    obtain rfl := Option.some.inj h
    exact inv_of_exec_next hu (exec_eq i u)
  · rw [hstep] at h
    obtain rfl := Option.some.inj h
    exact hs

theorem hostAct_inv {s : State} (hs : Inv s) (act : HostAction) : Inv (hostAct act s) := by
  cases act with
  | writeRegister r v => cases r <;> exact hs
  | writeFlag f v => cases f <;> exact hs
  | reset | writePc | setStatus => exact hs
  | writeByte addr v => exact writeByte_wf hs addr v
  | writeWord addr w => exact writeWord_wf hs addr w

/-- Settles O58: an instruction stores one byte at a 16-bit address or nothing, and the failure stores nothing. -/
theorem stepKeepsMemoryCanonical : Obligations.StepKeepsMemoryCanonical :=
  ⟨fun _ _ hs hstep => inv_of_stateAfter_step hs (congrArg stateAfter hstep),
    fun _ _ _ hs hstep => inv_of_stateAfter_step hs (congrArg stateAfter hstep)⟩

/-- Settles O60, by induction on how the state was reached. -/
theorem reachableStatesStayCanonical : Obligations.ReachableStatesStayCanonical := by
  obtain ⟨step_config, host_config⟩ := parametersNeverChange
  intro s t hs hreach
  induction hreach with
  | start => exact ⟨hs, rfl⟩
  | step t u _ goes ih =>
    obtain ⟨ht, hconfig⟩ := ih
    exact ⟨inv_of_stateAfter_step ht goes, (step_config t u goes).trans hconfig⟩
  | host act t _ ih =>
    obtain ⟨ht, hconfig⟩ := ih
    exact ⟨hostAct_inv ht act, (host_config act t).trans hconfig⟩

/-! ## Words -/

/-- Everything `writeWord` does to a later read (R36). -/
theorem readByte_writeWord_eq_ite (s : State) (addr w other : Word) :
    readByte (writeWord s addr w) other =
      if other = addr then loByte w else if other = addr + 1 then hiByte w else readByte s other := by
  have hne : addr ≠ addr + 1 := by simp
  rw [writeWord, readByte_writeByte_eq_ite, readByte_writeByte_eq_ite]
  by_cases hlow : other = addr
  · rw [if_neg (hlow ▸ hne), if_pos hlow, if_pos hlow]
  · rw [if_neg hlow, if_neg hlow]

theorem readWord_toNat (s : State) (addr : Word) :
    (readWord s addr).toNat = (readByte s addr).toNat + 256 * (readByte s (addr + 1)).toNat := by
  rw [readWord, joinWord_toNat]
  omega

/-- Settles O21: the clauses are what a byte reads as after `writeByte` and after `writeWord`. -/
theorem storeLaws : Obligations.StoreLaws := by
  refine ⟨readByte_writeByte_same, readWord_writeWord_same, fun s a b v hne => ?byte, fun s w => ⟨?low, ?high⟩⟩
  case byte => rw [readByte_writeByte_eq_ite, if_neg hne]
  case low => rw [readByte_writeWord_eq_ite, if_pos rfl]
  case high => rw [readByte_writeWord_eq_ite, if_neg (by decide), if_pos (by decide)]

/-- Settles O22: the halves of a word as numbers, read and written at two addresses. -/
theorem wordsAreLittleEndian : Obligations.WordsAreLittleEndian := by
  refine ⟨readWord_toNat, fun _ => rfl, fun s a w b => ⟨?_, rfl⟩⟩
  rw [readByte_writeWord_eq_ite]
  split_ifs
  · exact loByte_toNat w
  · exact hiByte_toNat w
  · rfl

/-! ## Canonical memories -/

/-- A canonical memory lists exactly the cells that read as other than `unlistedByte`. -/
theorem Memory.mem_iff_load {m : Memory} (hm : Memory.wf m) (c : Host.Cell) :
    c ∈ m ↔ Memory.load m c.1 = c.2 ∧ c.2 ≠ unlistedByte := by
  obtain ⟨hrising, hcells⟩ := hm
  constructor
  · intro hc
    exact ⟨Memory.load_of_listed hrising hc, (hcells c hc).2⟩
  · rintro ⟨hload, hne⟩
    have hlisted : ¬ ∀ d ∈ m, d.1 ≠ c.1 := fun h => hne (hload.symm.trans (Memory.load_of_not_listed h))
    push Not at hlisted
    obtain ⟨d, hd, haddr⟩ := hlisted
    have hbyte : d.2 = c.2 := by rw [← hload, ← haddr, Memory.load_of_listed hrising hd]
    rwa [← Prod.ext haddr hbyte]

/-- The canonical form is determined by what the memory reads as: same cells, in the same order. -/
theorem Memory.ext_of_wf {m k : Memory} (hm : Memory.wf m) (hk : Memory.wf k)
    (h : ∀ a, Memory.load m a = Memory.load k a) : m = k := by
  have hirrefl : Std.Irrefl (fun c d : Host.Cell => c.1 < d.1) := ⟨fun c => Nat.lt_irrefl c.1⟩
  exact hm.1.eq_of_mem_iff hk.1 fun c => by rw [mem_iff_load hm, mem_iff_load hk, h]

theorem Memory.store_load_same {m : Memory} (hm : Memory.wf m) {a : Nat} (ha : a < 65536) :
    Memory.store m a (Memory.load m a) = m := by
  refine ext_of_wf (store_wf hm ha _) hm fun b => ?_
  rw [load_store]
  split_ifs with hb
  · rw [hb]
  · rfl

/-- Settles O23: a canonical memory is the sorted list of its cells that are not 0x00. -/
theorem canonicalMemoriesAreExtensional : Obligations.CanonicalMemoriesAreExtensional := by
  refine ⟨fun _ _ => Memory.ext_of_wf, fun s a hs => ?_⟩
  rw [writeByte, readByte, Memory.store_load_same hs a.isLt]
  rfl

/-! ## What a read and a fetch see of a store -/

theorem stored_isSome (i : Instr) (s : State) :
    (stored i s).isSome = true ↔ i.operation ∈ [.sta, .stx, .sty, .pha, .php] := by
  cases i <;> simp [stored, Instr.operation, Instr.operand]

/-- Everything an instruction that stores does to a later read (R79, R96). -/
theorem readByte_of_stored {i : Instr} {s t : State} {ea : Word} {v : Byte} (hstored : stored i s = some (ea, v))
    (hexec : exec i s = .next t) (a : Word) : readByte t a = if a = ea then v else readByte s a := by
  have hmem := mem_of_exec_next hexec
  rw [hstored] at hmem
  exact (readByte_of_mem hmem a).trans (readByte_writeByte_eq_ite s ea a v)

theorem readByte_of_not_stored {i : Instr} {s t : State} (hstored : stored i s = none) (hexec : exec i s = .next t)
    (a : Word) : readByte t a = readByte s a := by
  have hmem := mem_of_exec_next hexec
  rw [hstored] at hmem
  exact readByte_of_mem hmem a

/-- Settles O44: stores and pushes are the instructions that name a byte, and that byte alone is written. -/
theorem memoryFrame : Obligations.MemoryFrame := by
  refine ⟨stored_isSome, fun i s t hexec => ?_⟩
  split
  next hstored => exact readByte_of_stored hstored hexec
  next hstored => exact readByte_of_not_stored hstored hexec

/-- Settles O56: a fetch gives the byte at PC, so it sees the store as any read does. -/
theorem storesAreSeenByFetch : Obligations.StoresAreSeenByFetch :=
  fun _ _ _ _ a _ _ hstored hexec => readByte_of_stored hstored hexec a

/-- A step runs the instruction whose entry the byte at PC has and whose operand bytes follow it. -/
theorem step_of_entryAtPc {s : State} {i : Instr} {rest : List Byte} (hentry : entryAtPc s = some (i.operation, i.mode))
    (hbytes : bytesAt s (s.pc + 1) 2 = i.operandBytes ++ rest) : step s = exec i (afterFetch i s) := by
  refine step_of_decodeWith (rest := rest) ?_
  rw [bytesAt, hbytes]
  exact decodeWith_operandBytes hentry rest

theorem step_of_entryAtPc_staAbs {s : State} (hentry : entryAtPc s = some (.sta, .absolute)) :
    step s = exec (.staAbs (readWord s (s.pc + 1))) (afterFetch (.staAbs (readWord s (s.pc + 1))) s) := by
  refine step_of_entryAtPc (rest := []) hentry ?_
  simp [bytesAt, Instr.operandBytes, Instr.operand, Operand.bytes, Address.bytes, readWord]

/-- Settles O57: the operand is fetched before the store, so the step is STA Absolute at the address it had. -/
theorem storeIntoOwnOperand : Obligations.StoreIntoOwnOperand := by
  intro s hentry hown
  have hstep := step_of_entryAtPc_staAbs hentry
  rw [hown] at hstep
  have hexec := exec_eq (.staAbs (s.pc + 1)) (afterFetch (.staAbs (s.pc + 1)) s)
  have hread := readByte_of_stored rfl hexec
  exact ⟨_, hstep.trans hexec, rfl, hread⟩

end Sys2Proof.Machine
end

section
/-! The bytes with no entry in the opcode table (30_encoding.md R57) and the Unknown-Opcode failure that they raise
(60_exceptions.md R105). -/

namespace Sys2Proof.Machine

open Sys2Proof.Claims

/-! ## The list of R57 -/

/-- The list of R57 is what R55 leaves of the 256 bytes, in rising order. The lists are compared as Booleans, whose
evaluation does not nest once for each element. -/
theorem undefinedOpcodes_eq_filter :
    undefinedOpcodes = ((List.finRange 256).map BitVec.ofFin).filter (fun op => (specTable.lookup op).isNone) :=
  eq_of_beq (by decide)

theorem mem_undefinedOpcodes {op : Byte} : op ∈ undefinedOpcodes ↔ specTable.lookup op = none := by
  have hbyte : op ∈ (List.finRange 256).map BitVec.ofFin := List.mem_map.mpr ⟨op.toFin, List.mem_finRange _, rfl⟩
  simp only [undefinedOpcodes_eq_filter, List.mem_filter, hbyte, true_and, Option.isNone_iff_eq_none]

/-- Without departures `OPCODE_TABLE` is the table of R55. -/
theorem tableEntry_of_no_overrides {cfg : Config} (h : cfg.opcodeOverrides = []) (op : Byte) :
    tableEntry cfg op = specTable.lookup op := by
  rw [tableEntry, h]
  rfl

theorem tableEntry_of_mem_undefinedOpcodes {cfg : Config} (h : cfg.opcodeOverrides = []) {op : Byte}
    (hop : op ∈ undefinedOpcodes) : tableEntry cfg op = none :=
  (tableEntry_of_no_overrides h op).trans (mem_undefinedOpcodes.mp hop)

/-! ## The failure -/

/-- A step at a byte with no entry raises Unknown-Opcode in the state with PC past that byte (R105). -/
theorem step_of_entryAtPc_none {s : State} (h : entryAtPc s = none) :
    step s = raiseUnknownOpcode ((s.setPc (s.pc + 1)).setOpcode (readByte s s.pc)) (readByte s s.pc) :=
  step_of_lookupOpcode_none (lookupOpcode_eq_none h)

theorem entryAtPc_eq_none_of_lookupOpcode {s : State}
    (h : lookupOpcode s.config.opcodeOverrides (readByte s s.pc) = none) : entryAtPc s = none := by
  rw [entryAtPc, ← lookupOpcode_entry, h]
  rfl

/-- Only the dispatch of a byte with no entry fails, because every instruction completes (R106). -/
theorem entryAtPc_eq_none_of_fault {s : State} {f : Fault} (h : step s = .fault f) : entryAtPc s = none := by
  obtain ⟨i, t, -, hstep⟩ | ⟨hlookup, -⟩ := step_cases s
  · rw [hstep, exec_eq] at h
    cases h
  · exact entryAtPc_eq_none_of_lookupOpcode hlookup

/-! ## The obligations -/

/-- Settles O5: at the default table the bytes of R57 are those that R55 gives no entry, and the entry of a byte decides
how it decodes and whether a step at it fails. -/
theorem undefinedOpcodesAreRefused : Obligations.UndefinedOpcodesAreRefused := by
  refine ⟨rfl, ?refused, ?defaultStep, ?anyStep, ?decoded⟩
  case refused =>
    intro op rest hop
    exact decodeWith_of_tableEntry_none (cfg := defaultConfig) (tableEntry_of_mem_undefinedOpcodes rfl hop) rest
  case defaultStep =>
    intro s htable hop
    exact ⟨_, step_of_entryAtPc_none (tableEntry_of_mem_undefinedOpcodes htable hop)⟩
  case anyStep =>
    intro s hentry
    exact ⟨_, step_of_entryAtPc_none hentry⟩
  case decoded =>
    intro op b1 b2 hop
    obtain ⟨p, hp⟩ := Option.ne_none_iff_exists'.mp (mt mem_undefinedOpcodes.mpr hop)
    have hentry : tableEntry defaultConfig op = some p := (tableEntry_of_no_overrides rfl op).trans hp
    obtain ⟨i, hdecode, -⟩ := decodeWith_of_tableEntry hentry b1 b2 []
    exact ⟨i, _, hdecode⟩

/-- Settles O8: the failure writes PC, the returned value and the recorded byte alone, and nothing else fails. -/
theorem unknownOpcodeFailure : Obligations.UnknownOpcodeFailure :=
  ⟨fun _ => step_of_entryAtPc_none, fun _ _ => entryAtPc_eq_none_of_fault⟩

/-- Settles O1: each word but the last is the encoding of its instruction, and 0x00 has no entry. -/
theorem decodeSpecWords : Obligations.DecodeSpecWords := by
  obtain ⟨decode_encode, -⟩ := decodeEncodeAgree
  exact ⟨decode_encode (.ldaImm 0x42) [], decode_encode (.ldaAbsX 0x5678) [], decode_encode (.staZp 0x10) [],
    decode_encode (.stxZpY 0x02) [], decode_encode (.styAbs 0x1234) [], decode_encode .txs [], decode_encode .pha [],
    decode_encode .plp [], decode_encode (.andImm 0x3C) [], decode_encode (.oraIndY 0x10) [],
    decodeWith_of_tableEntry_none (cfg := defaultConfig) rfl []⟩

end Sys2Proof.Machine
end

section
/-! The addressing modes (40_dispatch_addressing.md R67 to R78): when an indexed address crosses a page, and what the
zero-page modes and the zero-page pointer read. -/

namespace Sys2Proof.Machine

open Sys2Proof.Claims

/-- Settles O41: the two shapes of an operand. -/
theorem operandOfReadOperation : Obligations.OperandOfReadOperation :=
  ⟨fun _ _ => ⟨rfl, rfl⟩, fun _ _ => ⟨rfl, rfl⟩⟩

/-! ## Page crossing -/

theorem hiByte_eq_iff {u w : Word} : hiByte u = hiByte w ↔ u.toNat / 256 = w.toNat / 256 := by
  rw [← BitVec.toNat_inj, hiByte_toNat, hiByte_toNat]

theorem indexed_ea_toNat (base : Word) (index : Byte) :
    (indexed base index).ea.toNat = (base.toNat + index.toNat) % 65536 := by
  rw [indexed, BitVec.toNat_add, zext16_toNat]

theorem indexed_crossed_iff (base : Word) (index : Byte) :
    (indexed base index).crossed = true ↔ hiByte (indexed base index).ea ≠ hiByte base :=
  bne_iff_ne

/-- Settles O19: as numbers, the page of the sum is the base's or the next, and it is the next if the low byte carries;
after the last page comes page 0. -/
theorem pageCrossingIsLowByteCarry : Obligations.PageCrossingIsLowByteCarry := by
  refine fun base index => ⟨?_, indexed_ea_toNat base index⟩
  have hbase := base.isLt
  have hindex := index.isLt
  rw [indexed_crossed_iff, Ne, hiByte_eq_iff, indexed_ea_toNat]
  omega

/-- Settles O18: three modes index a 16-bit base, and the others answer `crossed = false`. -/
theorem pageCrossingRule : Obligations.PageCrossingRule := by
  intro m s
  cases m with
  | absoluteX w | absoluteY w | indirectY z => simp [resolve, indexed_crossed_iff]
  | zeroPage z | zeroPageX z | zeroPageY z | absolute w | indirectX z => simp [resolve]

/-! ## Page 0 -/

/-- The byte after a zero-page address is in page 0 too, unless the address is the last of the page. -/
theorem zext16_add_one {z : Byte} (h : z ≠ 0xFF) : zext16 (z + 1) = zext16 z + 1 := by
  have hz : z.toNat ≠ 255 := fun h255 => h (BitVec.eq_of_toNat_eq h255)
  have hlt := z.isLt
  apply BitVec.eq_of_toNat_eq
  simp only [zext16_toNat, BitVec.toNat_add, BitVec.toNat_ofNat, BitVec.ofNat_eq_ofNat]
  omega

theorem zpReadWord_page0 {s : State} (h : s.config.zpPointerWrap = .page0) (z : Byte) :
    zpReadWord s z = joinWord (readByte s (zext16 (z + 1))) (readByte s (zext16 z)) := by
  simp only [zpReadWord, h]

theorem zpReadWord_linear {s : State} (h : s.config.zpPointerWrap = .linear) (z : Byte) :
    zpReadWord s z = joinWord (readByte s (zext16 z + 1)) (readByte s (zext16 z)) := by
  simp only [zpReadWord, h]

/-- Short of the end of page 0 a pointer is the word at its address, whatever the setting (R76). -/
theorem zpReadWord_eq_readWord (s : State) {z : Byte} (h : z ≠ 0xFF) : zpReadWord s z = readWord s (zext16 z) := by
  cases hwrap : s.config.zpPointerWrap with
  | page0 => rw [zpReadWord_page0 hwrap, zext16_add_one h, readWord]
  | linear => rw [zpReadWord_linear hwrap, readWord]

/-- Settles O17: the two settings differ in the address of the high byte alone, and only at 0xFF. -/
theorem zeroPagePointerRead : Obligations.ZeroPagePointerRead := by
  refine ⟨fun _ z h => zpReadWord_page0 h z, fun _ z h => zpReadWord_linear h z, fun _ h => zpReadWord_page0 h 0xFF,
    fun _ h => zpReadWord_linear h 0xFF, fun s z setting hz => ?_⟩
  rw [zpReadWord_eq_readWord _ hz, zpReadWord_eq_readWord s hz]
  rfl

theorem zext16_lt (z : Byte) : (zext16 z).toNat < 256 := by
  rw [zext16_toNat]
  exact z.isLt

/-- Settles O20: a zero-page address is a byte extended, and so are both addresses a Page0 pointer is read from. -/
theorem zeroPageModesStayInPageZero : Obligations.ZeroPageModesStayInPageZero := by
  refine ⟨fun z s => ⟨zext16_toNat z, ?_, ?_⟩, fun s t z hs ht hagree => ?_⟩
  · exact (zext16_toNat (z + s.x)).trans (BitVec.toNat_add z s.x)
  · exact (zext16_toNat (z + s.y)).trans (BitVec.toNat_add z s.y)
  · rw [zpReadWord_page0 hs, zpReadWord_page0 ht, hagree _ (zext16_lt z), hagree _ (zext16_lt (z + 1))]

end Sys2Proof.Machine
end

section
/-! What a step does to PC, and what it costs (40_dispatch_addressing.md R61 to R64, R80 to R82). -/

namespace Sys2Proof.Machine

open Sys2Proof.Claims

/-! ## PC -/

theorem pc_of_exec_next {i : Instr} {s t : State} (h : exec i s = .next t) : t.pc = s.pc := by
  obtain rfl := eq_of_exec_next h
  exact effect_pc _ s _

/-- Settles O7: both primitives read at PC, and the addresses at the end of memory wrap. -/
theorem fetchPrimitives : Obligations.FetchPrimitives := by
  refine ⟨fun _ => rfl, fun _ => rfl, fun s h => ⟨?_, ?_⟩, fun s h => ?_, fun _ _ _ => pc_of_exec_next⟩
  · rw [fetchByte, h]
    rfl
  · rw [fetchWord, h]
    rfl
  · rw [fetchWord, h]
    rfl

/-- A byte with an entry decodes to an instruction of that operation and mode, whose operand the mode makes of the two
bytes after it (R51, R64). -/
theorem decodeWith_of_entryAtPc {s : State} {op : Operation} {m : Mode} (h : entryAtPc s = some (op, m)) :
    ∃ (i : Instr) (rest : List Byte), decodeWith s.config.opcodeOverrides (bytesAt s s.pc 3) = .ok (i, rest) ∧
      i.operation = op ∧ i.mode = m ∧ i.operand = operandOf m (readByte s (s.pc + 1)) (readByte s (s.pc + 2)) := by
  have hnext : s.pc + 1 + 1 = s.pc + 2 := BitVec.add_assoc s.pc 1 1
  simp only [bytesAt, hnext]
  obtain ⟨i, hdecode, hi⟩ := decodeWith_of_tableEntry h (readByte s (s.pc + 1)) (readByte s (s.pc + 2)) []
  exact ⟨i, _, hdecode, hi⟩

/-- A step that completes had a byte with an entry at PC. -/
theorem exists_entryAtPc_of_step_next {s t : State} (h : step s = .next t) : ∃ p, entryAtPc s = some p := by
  refine Option.ne_none_iff_exists'.mp fun hentry => ?_
  rw [step_of_entryAtPc_none hentry] at h
  cases h

/-- A step that completes has executed the instruction that the bytes at PC decode to (R61). -/
theorem decodeWith_of_step_next {s t : State} (h : step s = .next t) :
    ∃ (i : Instr) (rest : List Byte), decodeWith s.config.opcodeOverrides (bytesAt s s.pc 3) = .ok (i, rest) ∧
      exec i (afterFetch i s) = .next t := by
  obtain ⟨p, hentry⟩ := exists_entryAtPc_of_step_next h
  obtain ⟨i, rest, hdecode, -⟩ := decodeWith_of_entryAtPc hentry
  exact ⟨i, rest, hdecode, (step_of_decodeWith hdecode).symm.trans h⟩

/-- A step that fails leaves PC past the byte, and returns that byte (R105). -/
theorem pc_result_of_step_fault {s u : State} {op : Byte} (h : step s = .fault (.unknownOpcode op u)) :
    u.pc = s.pc + 1 ∧ u.result = some (.unknownOpcode op) := by
  rw [step_of_entryAtPc_none (entryAtPc_eq_none_of_fault h)] at h
  cases h
  exact ⟨rfl, rfl⟩

theorem hostAct_pc {act : HostAction} (hreset : act ≠ .reset) (hpc : ∀ w, act ≠ .writePc w) (s : State) :
    (hostAct act s).pc = s.pc := by
  cases act with
  | reset => exact absurd rfl hreset
  | writePc w => exact absurd rfl (hpc w)
  | writeRegister r v => cases r <;> rfl
  | writeFlag f v => cases f <;> rfl
  | setStatus | writeByte | writeWord => rfl

/-- Settles O11: the fetch alone moves PC, past the instruction's bytes or past the one that has no entry. -/
theorem pcAdvancesByLength : Obligations.PcAdvancesByLength := by
  refine ⟨fun _ _ _ => pc_of_exec_next, fun s t hstep => ?_, fun _ _ _ hstep => (pc_result_of_step_fault hstep).1,
    fun act s hne => ?_⟩
  · obtain ⟨i, rest, hdecode, hexec⟩ := decodeWith_of_step_next hstep
    exact ⟨i, rest, hdecode, pc_of_exec_next hexec⟩
  · by_contra hother
    obtain ⟨hreset, hpc⟩ := not_or.mp hother
    exact hne (hostAct_pc hreset (not_exists.mp hpc) s)

/-! ## The cycle count -/

theorem mode_of_crossed {m : Address} {s : State} (h : (resolve m s).crossed = true) :
    m.mode = .absoluteX ∨ m.mode = .absoluteY ∨ m.mode = .indirectY := by
  obtain ⟨base, rfl | rfl | ⟨z, rfl, -⟩, -⟩ := (pageCrossingRule m s).mp h
  · exact .inl rfl
  · exact .inr (.inl rfl)
  · exact .inr (.inr rfl)

/-- The penalty of R81 for a memory operand is its crossing cycle, because no other mode crosses (R77). -/
theorem penalty_eq_crossingCycle {i : Instr} {m : Address} (h : i.operand = some (.memory m)) (s : State) :
    penalty s.config (resolve m s).crossed (isStore i) = crossingCycle i s := by
  simp only [crossingCycle, h]
  cases hcrossed : (resolve m s).crossed with
  | false => simp [penalty]
  | true => simp [penalty, mode_of_crossed hcrossed]

/-- The count of R80 for every instruction. -/
theorem resolved_cycles (i : Instr) (s : State) :
    (resolved i s).cycles = baseCycles s.config s.opcode + crossingCycle i s := by
  cases h : i.operand with
  | none => simp only [resolved, crossingCycle, h, cycles, penalty_not_crossed]
  | some o =>
    cases o with
    | immediate v => simp only [resolved, crossingCycle, h, cycles, penalty_not_crossed]
    | memory m => simp only [resolved, h, cycles, penalty_eq_crossingCycle h]

theorem result_of_exec_next {i : Instr} {s t : State} (h : exec i s = .next t) :
    t.result = some (.ok (baseCycles s.config s.opcode + crossingCycle i s)) := by
  obtain rfl := eq_of_exec_next h
  rw [← resolved_cycles]
  rfl

theorem crossingCycle_afterFetch (i : Instr) (s : State) : crossingCycle i (afterFetch i s) = crossingCycle i s := by
  have hresolve (m : Address) : resolve m (afterFetch i s) = resolve m s := resolve_congr rfl rfl rfl rfl m
  simp only [crossingCycle, hresolve]
  rfl

/-- The count a step returns: that of the instruction and the opcode byte at PC (R80). -/
theorem result_of_step_next {s t : State} (h : step s = .next t) :
    ∃ (i : Instr) (rest : List Byte), decodeWith s.config.opcodeOverrides (bytesAt s s.pc 3) = .ok (i, rest) ∧
      t.result = some (.ok (baseCycles s.config (readByte s s.pc) + crossingCycle i s)) := by
  obtain ⟨i, rest, hdecode, hexec⟩ := decodeWith_of_step_next h
  have hresult := result_of_exec_next hexec
  rw [crossingCycle_afterFetch] at hresult
  exact ⟨i, rest, hdecode, hresult⟩

/-- Settles O12: the penalty is the crossing cycle, and a failed step returns the byte. -/
theorem cycleCost : Obligations.CycleCost := by
  refine ⟨fun s u op hstep n hn => ?_, fun _ _ _ => result_of_exec_next, fun _ _ => result_of_step_next⟩
  obtain ⟨-, hresult⟩ := pc_result_of_step_fault hstep
  cases hresult.symm.trans hn

theorem crossingCycle_le_one (i : Instr) (s : State) : crossingCycle i s ≤ 1 := by
  unfold crossingCycle
  split
  · split <;> decide
  · decide
  · decide

/-- The base cost of every byte of R55 at the default of R126. -/
theorem defaultBaseCycles_two_to_six :
    ∀ p ∈ specTable, 2 ≤ defaultBaseCycles p.1 ∧ defaultBaseCycles p.1 ≤ 6 := by decide

theorem baseCycles_of_no_overrides {cfg : Config} (h : cfg.baseCycleOverrides = []) (op : Byte) :
    baseCycles cfg op = defaultBaseCycles op := by
  rw [baseCycles, h]
  rfl

/-- Settles O13: the base costs of R126 are 2 to 6, and a crossing adds at most 1. -/
theorem cycleCountsWithinTwoToSeven : Obligations.CycleCountsWithinTwoToSeven := by
  intro s t n hbase htable hstep hresult
  obtain ⟨p, hentry⟩ := exists_entryAtPc_of_step_next hstep
  rw [entryAtPc, tableEntry_of_no_overrides htable] at hentry
  obtain ⟨hlow, hhigh⟩ : 2 ≤ defaultBaseCycles (readByte s s.pc) ∧ defaultBaseCycles (readByte s s.pc) ≤ 6 :=
    defaultBaseCycles_two_to_six _ (mem_specTable_of_lookup hentry)
  obtain ⟨i, -, -, hcount⟩ := result_of_step_next hstep
  rw [baseCycles_of_no_overrides hbase, hresult, Option.some.injEq, StepResult.ok.injEq] at hcount
  have hcrossing := crossingCycle_le_one i s
  omega

end Sys2Proof.Machine
end

section
/-! A whole step in every addressing mode, from the bytes at PC to the loaded register (40_dispatch_addressing.md R66 to
R75; 41_load_store.md R84). -/

namespace Sys2Proof.Machine

open Sys2Proof.Claims

theorem pairing_zeroPageY {op : Operation} (h : pairing op .zeroPageY = true) : op = .ldx ∨ op = .stx := by
  cases op
  case ldx => exact .inl rfl
  case stx => exact .inr rfl
  all_goals cases h

/-- Only LDX and STX pair with Zero-page,Y (R70). -/
theorem operation_of_mode_zeroPageY {i : Instr} (h : i.mode = .zeroPageY) :
    i.operation = .ldx ∨ i.operation = .stx := by
  have hwf := instr_wf i
  rw [Instr.wf, h] at hwf
  exact pairing_zeroPageY hwf

/-- An instruction of a read operation hands its operand byte to the effect of its mnemonic (R65, R78). -/
theorem exec_of_read {i : Instr} {o : Operand} (hoperand : i.operand = some o)
    (hread : i.operation ∈ [.lda, .ldx, .ldy, .and, .eor, .ora]) (s : State) :
    exec i s = readOperation o (readEffect i.operation) s := by
  have hdisjoint : ∀ op ∈ [Operation.lda, .ldx, .ldy, .and, .eor, .ora], op ∉ [.sta, .stx, .sty] := by decide
  obtain ⟨_, ho, -, hexec⟩ | ⟨_, _, -, hstore, -⟩ | ⟨hnone, -⟩ := exec_shape i s
  · obtain rfl := Option.some.inj (hoperand.symm.trans ho)
    exact hexec
  · exact absurd hstore (hdisjoint _ hread)
  · cases hoperand.symm.trans hnone

/-- A step at a byte with the entry of a read operation, in the mode's operand (R61, R78, R80, R81). -/
theorem step_of_read_entry {s : State} {op : Operation} {m : Mode} {o : Operand} (hentry : entryAtPc s = some (op, m))
    (hread : op ∈ [.lda, .ldx, .ldy, .and, .eor, .ora])
    (hoperand : operandOf m (readByte s (s.pc + 1)) (readByte s (s.pc + 2)) = some o) :
    step s = .next ((readEffect op
      ((s.setPc (s.pc + BitVec.ofNat 16 (1 + m.operandBytes))).setOpcode (readByte s s.pc)) (operandByte o s)).setResult
        (some (.ok (baseCycles s.config (readByte s s.pc) + if operandCrossed o s then 1 else 0)))) := by
  obtain ⟨i, _, hdecode, rfl, rfl, hi⟩ := decodeWith_of_entryAtPc hentry
  rw [step_of_decodeWith hdecode, exec_of_read (hi.trans hoperand) hread, readOperation_eq, cycles, penalty_read,
    operandByte_congr (t := s) rfl rfl rfl rfl, operandCrossed_congr (t := s) rfl rfl rfl rfl]
  rfl

/-- A step of LDA in any of its modes (R84). -/
theorem step_of_lda_entry {s : State} {m : Mode} {o : Operand} (hentry : entryAtPc s = some (.lda, m))
    (hoperand : operandOf m (readByte s (s.pc + 1)) (readByte s (s.pc + 2)) = some o) :
    step s = .next (loadedA s (BitVec.ofNat 16 (1 + m.operandBytes)) (operandByte o s) (operandCrossed o s)) :=
  step_of_read_entry hentry (by decide) hoperand

/-- A step of TAX fetches one byte and adds no cycle (R66, R90). -/
theorem step_of_tax_entry {s : State} (hentry : entryAtPc s = some (.tax, .implied)) :
    step s = .next (((((s.setPc (s.pc + 1)).setOpcode (readByte s s.pc)).setX s.a).setZN s.a).setResult
      (some (.ok (baseCycles s.config (readByte s s.pc))))) := by
  obtain ⟨i, _, hdecode, hop, hmode, hoperand⟩ := decodeWith_of_entryAtPc hentry
  rw [step_of_decodeWith hdecode, exec_eq, afterFetch, Instr.length, resolved, hoperand, hop, hmode]
  rfl

/-- Settles O16: each mode makes the operand of LDA, LDX or TAX from the bytes after the opcode. -/
theorem addressingModesFromBytes : Obligations.AddressingModesFromBytes := by
  refine ⟨fun _ => operation_of_mode_zeroPageY, fun s => ⟨?_, ?_, ?_, ?_, ?_, ?_, ?_, ?_, ?ldx, ?tax⟩⟩
  case ldx => exact fun h => step_of_read_entry h (by decide) rfl
  case tax => exact step_of_tax_entry
  all_goals exact fun h => step_of_lda_entry h rfl

end Sys2Proof.Machine
end

section
/-! Which opcode bytes and modes an operation has, read off the table of R55 (30_encoding.md; the encoding lines of R84
to R104). -/

namespace Sys2Proof.Machine

open Sys2Proof.Claims

/-- Every row of R55 is the row of an instruction. -/
theorem exists_instr_of_specTable_lookup {op : Byte} {o : Operation} {m : Mode}
    (h : specTable.lookup op = some (o, m)) : ∃ i : Instr, i.operation = o ∧ i.opcode = op ∧ i.mode = m := by
  obtain ⟨i, -, rfl, rfl, -⟩ := decodeWith_of_tableEntry (cfg := defaultConfig) h 0x00 0x00 []
  exact ⟨i, rfl, (opcode_eq_of_specTable_lookup h).symm, rfl⟩

/-- The forms of an operation are its rows of R55. -/
theorem hasForms_of_specTable {o : Operation} {forms : List (Byte × Mode)}
    (hlisted : ∀ row ∈ specTable, row.2.1 = o → (row.1, row.2.2) ∈ forms)
    (hrows : ∀ f ∈ forms, specTable.lookup f.1 = some (o, f.2)) : HasForms o forms := by
  refine ⟨fun i hi => ?_, fun f hf => ?_⟩
  · exact hlisted _ (mem_specTable_of_lookup (specTable_lookup_opcode i)) hi
  · obtain ⟨i, hop, hopcode, hmode⟩ := exists_instr_of_specTable_lookup (hrows f hf)
    exact ⟨i, hop, Prod.ext hopcode hmode⟩

end Sys2Proof.Machine
end

section
/-! The loads and the stores (41_load_store.md R84 to R89): an instruction of a read operation and one of a write
operation as one equation each, for every operand and every state. -/

namespace Sys2Proof.Machine

open Sys2Proof.Claims

/-! ## Loads -/

/-- An instruction of a read operation completes with the effect of its mnemonic on the operand byte, and pays one cycle
for a crossing (R65, R78, R80, R81). -/
theorem exec_read_eq {i : Instr} {op : Operation} {o : Operand} (hop : i.operation = op)
    (hread : op ∈ [.lda, .ldx, .ldy, .and, .eor, .ora]) (hoperand : i.operand = some o) (s : State) :
    exec i s = .next ((readEffect op s (operandByte o s)).setResult
      (some (.ok (baseCycles s.config s.opcode + if operandCrossed o s then 1 else 0)))) := by
  subst hop
  rw [exec_of_read hoperand hread, readOperation_eq, cycles, penalty_read]

/-- Settles O26: LDA is a read operation whose effect is the load of A. -/
theorem ldaLoadsAccumulator : Obligations.LdaLoadsAccumulator :=
  ⟨hasForms_of_specTable (by decide) (by decide), fun _ _ s hop hoperand => exec_read_eq hop (by decide) hoperand s⟩

/-- Settles O27: LDX is a read operation whose effect is the load of X. -/
theorem ldxLoadsX : Obligations.LdxLoadsX :=
  ⟨hasForms_of_specTable (by decide) (by decide), fun _ _ s hop hoperand => exec_read_eq hop (by decide) hoperand s⟩

/-- Settles O28: LDY is a read operation whose effect is the load of Y. -/
theorem ldyLoadsY : Obligations.LdyLoadsY :=
  ⟨hasForms_of_specTable (by decide) (by decide), fun _ _ s hop hoperand => exec_read_eq hop (by decide) hoperand s⟩

/-! ## Stores -/

theorem storedRegister_of_read {op : Operation} (h : op ∈ [.lda, .ldx, .ldy, .and, .eor, .ora]) (s : State) :
    storedRegister op s = none := by
  cases op
  case sta | stx | sty => simp at h
  all_goals rfl

/-- An instruction of a write operation writes its register at its effective address (R65, R79). -/
theorem exec_of_store {i : Instr} {m : Address} {s : State} {u : Byte} (hoperand : i.operand = some (.memory m))
    (hregister : storedRegister i.operation s = some u) : exec i s = writeOperation m u s := by
  obtain ⟨_, -, hread, -⟩ | ⟨m', u', hm, -, hu, hexec⟩ | ⟨hnone, -⟩ := exec_shape i s
  · cases hregister.symm.trans (storedRegister_of_read hread s)
  · cases hoperand.symm.trans hm
    cases hregister.symm.trans hu
    exact hexec
  · cases hoperand.symm.trans hnone

/-- What a read sees after a store: the register at the effective address, and every other byte as before (R79). -/
theorem readByte_of_store {i : Instr} {m : Address} {s t : State} {u : Byte} (hoperand : i.operand = some (.memory m))
    (hregister : storedRegister i.operation s = some u) (hexec : exec i s = .next t) (a : Word) :
    readByte t a = if a = (resolve m s).ea then u else readByte s a := by
  rw [exec_of_store hoperand hregister, writeOperation_eq] at hexec
  obtain rfl := Host.Outcome.next.inj hexec
  rw [readByte_setResult, readByte_writeByte_eq_ite]

/-- Settles O29: STA is a write operation of A, which pays for a crossing if `PENALTY_ON_STORES`. -/
theorem staStoresAccumulator : Obligations.StaStoresAccumulator := by
  refine ⟨hasForms_of_specTable (by decide) (by decide), fun i m s hop hoperand => ?_⟩
  have hregister : storedRegister i.operation s = some s.a := by rw [hop]; rfl
  refine ⟨?_, fun t a hexec => readByte_of_store hoperand hregister hexec a⟩
  rw [exec_of_store hoperand hregister, writeOperation_eq, cycles, penalty_store]
  rfl

theorem pairing_of_operand {i : Instr} {m : Address} (h : i.operand = some (.memory m)) :
    pairing i.operation m.mode = true := by
  have hwf := instr_wf i
  rwa [Instr.wf, Instr.mode, h] at hwf

/-- No mode of STX or STY can cross a page (R88, R89): Absolute,X, Absolute,Y and Indirect,Y are not among them. -/
theorem not_crossed_of_stx_sty {i : Instr} {m : Address} (hop : i.operation ∈ [.stx, .sty])
    (hoperand : i.operand = some (.memory m)) (s : State) : (resolve m s).crossed = false := by
  have hunpaired : ∀ op ∈ [Operation.stx, .sty], ∀ mode ∈ [Mode.absoluteX, .absoluteY, .indirectY],
      ¬ pairing op mode := by decide
  refine Bool.eq_false_iff.mpr fun hcrossed => ?_
  have hmode : m.mode ∈ [Mode.absoluteX, .absoluteY, .indirectY] := by simpa using mode_of_crossed hcrossed
  exact hunpaired _ hop _ hmode (pairing_of_operand hoperand)

/-- STX and STY complete at the base cost (R80). -/
theorem exec_of_stx_sty {i : Instr} {m : Address} {s : State} {u : Byte} (hop : i.operation ∈ [.stx, .sty])
    (hoperand : i.operand = some (.memory m)) (hregister : storedRegister i.operation s = some u) :
    exec i s =
      .next ((writeByte s (resolve m s).ea u).setResult (some (.ok (baseCycles s.config s.opcode)))) := by
  rw [exec_of_store hoperand hregister, writeOperation_eq, cycles, not_crossed_of_stx_sty hop hoperand,
    penalty_not_crossed, Nat.add_zero]

/-- Settles O30: STX is a write operation of X without a crossing. -/
theorem stxStoresX : Obligations.StxStoresX := by
  refine ⟨hasForms_of_specTable (by decide) (by decide), fun i m s hop hoperand => ?_⟩
  have hregister : storedRegister i.operation s = some s.x := by rw [hop]; rfl
  exact ⟨exec_of_stx_sty (by simp [hop]) hoperand hregister,
    fun _ a hexec => readByte_of_store hoperand hregister hexec a⟩

/-- Settles O31: STY is a write operation of Y without a crossing. -/
theorem styStoresY : Obligations.StyStoresY := by
  refine ⟨hasForms_of_specTable (by decide) (by decide), fun i m s hop hoperand => ?_⟩
  have hregister : storedRegister i.operation s = some s.y := by rw [hop]; rfl
  exact ⟨exec_of_stx_sty (by simp [hop]) hoperand hregister,
    fun _ a hexec => readByte_of_store hoperand hregister hexec a⟩

end Sys2Proof.Machine
end

section
/-! The implied operations as one equation, and the register transfers (42_transfer.md R90 to R95). -/

namespace Sys2Proof.Machine

/-- An instruction without an operand completes with the effect of its mnemonic at the base cost: it has no address
that could cross a page (R66, R80). -/
theorem exec_implied_eq {i : Instr} (hoperand : i.operand = none) (s : State) :
    exec i s = .next ((impliedEffect i.operation s).setResult (some (.ok (baseCycles s.config s.opcode)))) := by
  obtain ⟨_, hsome, -⟩ | ⟨_, _, hsome, -⟩ | ⟨-, -, hexec⟩ := exec_shape i s
  · cases hoperand.symm.trans hsome
  · cases hoperand.symm.trans hsome
  · rw [hexec, impliedOperation_eq, cycles, penalty_not_crossed, Nat.add_zero]

/-- Settles O32: each of the five is an implied operation whose effect is a register write and `setZN` of that byte. -/
theorem transfersCopyAndSetZN : Obligations.TransfersCopyAndSetZN :=
  ⟨⟨rfl, rfl, exec_implied_eq rfl⟩, ⟨rfl, rfl, exec_implied_eq rfl⟩, ⟨rfl, rfl, exec_implied_eq rfl⟩,
    ⟨rfl, rfl, exec_implied_eq rfl⟩, ⟨rfl, rfl, exec_implied_eq rfl⟩⟩

/-- Settles O33: TXS is an implied operation whose effect is the write of SP alone. -/
theorem txsCopiesWithoutFlags : Obligations.TxsCopiesWithoutFlags := ⟨rfl, rfl, exec_implied_eq rfl⟩

end Sys2Proof.Machine
end

section
/-! The stack primitives and the four stack instructions as equations (43_stack.md R96 to R101). -/

namespace Sys2Proof.Machine

/-! ## Primitives -/

/-- The lowest byte of page 1, where the wraps of SP land (R96, R97). -/
theorem stackAddress_zero : stackAddress 0x00 = 0x0100 := by decide

/-- At SP = 0x00 a push writes the lowest byte of page 1 and wraps SP (R96). -/
theorem stackPush_at_bottom {s : State} (h : s.sp = 0x00) (u : Byte) :
    (stackPush s u).sp = 0xFF ∧ readByte (stackPush s u) 0x0100 = u := by
  constructor
  · rw [stackPush_eq, h]
    rfl
  · rw [readByte_stackPush_eq_ite, h, stackAddress_zero, if_pos rfl]

/-- At SP = 0xFF a pull wraps SP and reads the lowest byte of page 1 (R97). -/
theorem stackPop_at_top {s : State} (h : s.sp = 0xFF) :
    (stackPop s).2.sp = 0x00 ∧ (stackPop s).1 = readByte s 0x0100 := by
  have hwrap : s.sp + 1 = 0x00 := by rw [h]; rfl
  rw [stackPop_eq, hwrap, stackAddress_zero]
  exact ⟨rfl, rfl⟩

/-- Settles O48: the two equations of the primitives, their wraps, and the pull that undoes a push. -/
theorem stackPrimitives : Obligations.StackPrimitives := by
  refine ⟨stackPush_eq, stackPop_eq, fun _ u h => stackPush_at_bottom h u, fun _ => stackPop_at_top, fun s u => ?_⟩
  rw [stackPop_stackPush]
  exact ⟨rfl, rfl⟩

/-! ## Instructions -/

/-- An implied operation that pushes a byte changes that byte of page 1 and SP, and costs the base count (R96). -/
theorem exec_of_push {i : Instr} {s : State} {u : Byte} (hoperand : i.operand = none)
    (heffect : impliedEffect i.operation s = stackPush s u) :
    exec i s =
      .next { s with
        mem := (writeByte s (stackAddress s.sp) u).mem, sp := s.sp - 1
        result := some (.ok (baseCycles s.config s.opcode)) } := by
  rw [exec_implied_eq hoperand, heffect, stackPush_eq]
  rfl

/-- An implied operation that pulls acts on the byte at the new stack address, in the state with SP one higher, and
costs the base count (R97). -/
theorem exec_of_pull {i : Instr} {s : State} (act : State → Byte → State) (hoperand : i.operand = none)
    (heffect : impliedEffect i.operation s = act (stackPop s).2 (stackPop s).1) :
    exec i s =
      .next ((act { s with sp := s.sp + 1 } (readByte s (stackAddress (s.sp + 1)))).setResult
        (some (.ok (baseCycles s.config s.opcode)))) := by
  rw [exec_implied_eq hoperand, heffect, stackPop_eq]

/-- Settles O34: PHA pushes A. -/
theorem phaPushesAccumulator : Obligations.PhaPushesAccumulator :=
  ⟨rfl, rfl, fun _ => exec_of_push rfl rfl⟩

/-- Settles O35: PHP pushes the packed status byte. -/
theorem phpPushesStatus : Obligations.PhpPushesStatus :=
  ⟨rfl, rfl, fun s => ⟨getStatus_break s, getStatus_bit5 s⟩, fun _ => exec_of_push rfl rfl⟩

/-- Settles O36: PLA writes the pulled byte to A and sets Z and N from it. -/
theorem plaPullsAccumulator : Obligations.PlaPullsAccumulator :=
  ⟨rfl, rfl, fun _ => exec_of_pull (fun t u => (t.setA u).setZN u) rfl rfl⟩

/-- Settles O37: PLP unpacks the pulled byte into the flags. -/
theorem plpPullsStatus : Obligations.PlpPullsStatus :=
  ⟨rfl, rfl, fun _ => exec_of_pull State.setStatus rfl rfl⟩

end Sys2Proof.Machine
end

section
/-! The bitwise operations (44_logic.md R102 to R104): read operations whose effect replaces A by a combination of A and
the operand byte. -/

namespace Sys2Proof.Machine

/-- A read operation whose effect is a new value of A changes A, and Z and N from that value (R24), and costs the base
count and one cycle for a crossing (R80, R81). -/
theorem exec_of_accumulator_read {i : Instr} {op : Operation} {o : Operand} {s : State} {r : Byte}
    (hop : i.operation = op) (hread : op ∈ [.lda, .ldx, .ldy, .and, .eor, .ora]) (hoperand : i.operand = some o)
    (heffect : readEffect op s (operandByte o s) = (s.setA r).setZN r) :
    exec i s =
      .next { s with
        a := r, z := r == 0x00, n := r[7]
        result := some (.ok (baseCycles s.config s.opcode + if operandCrossed o s then 1 else 0)) } := by
  rw [exec_read_eq hop hread hoperand, heffect]
  rfl

/-- Settles O38: the new value of A is `A & v`. -/
theorem andMasksAccumulator : Obligations.AndMasksAccumulator :=
  ⟨hasForms_of_specTable (by decide) (by decide),
    fun _ _ _ hop hoperand => exec_of_accumulator_read hop (by decide) hoperand rfl⟩

/-- Settles O39: the new value of A is `A ^ v`. -/
theorem eorTogglesAccumulator : Obligations.EorTogglesAccumulator :=
  ⟨hasForms_of_specTable (by decide) (by decide),
    fun _ _ _ hop hoperand => exec_of_accumulator_read hop (by decide) hoperand rfl⟩

/-- Settles O40: the new value of A is `A | v`. -/
theorem oraSetsAccumulatorBits : Obligations.OraSetsAccumulatorBits :=
  ⟨hasForms_of_specTable (by decide) (by decide),
    fun _ _ _ hop hoperand => exec_of_accumulator_read hop (by decide) hoperand rfl⟩

end Sys2Proof.Machine
end

section
/-! What a step can end in, and where the run stands after the Unknown-Opcode failure (60_exceptions.md R105, R106,
R110). -/

namespace Sys2Proof.Machine

open Sys2Proof.Claims

/-- An instruction completes with `Ok` of a count (R106). -/
theorem exec_completes (i : Instr) (s : State) :
    ∃ (t : State) (n : Nat), exec i s = .next t ∧ t.result = some (.ok n) :=
  ⟨_, _, exec_eq i s, result_of_exec_next (exec_eq i s)⟩

/-- A step at a byte with an entry completes, as the instruction that it executes does. -/
theorem step_completes_of_entryAtPc {s : State} (h : entryAtPc s ≠ none) :
    ∃ (t : State) (n : Nat), step s = .next t ∧ t.result = some (.ok n) := by
  obtain ⟨p, hentry⟩ := Option.ne_none_iff_exists'.mp h
  obtain ⟨i, rest, hdecode, -⟩ := decodeWith_of_entryAtPc hentry
  rw [step_of_decodeWith hdecode]
  exact exec_completes i (afterFetch i s)

theorem step_ne_refused (s : State) (r : Refusal) : step s ≠ .refused r := by
  intro hstep
  by_cases hentry : entryAtPc s = none
  · cases (step_of_entryAtPc_none hentry).symm.trans hstep
  · obtain ⟨t, n, hnext, -⟩ := step_completes_of_entryAtPc hentry
    cases hnext.symm.trans hstep

/-- Settles O10: the entry of the byte at PC decides between an instruction, which completes, and the failure. -/
theorem everyInstructionCompletes : Obligations.EveryInstructionCompletes :=
  ⟨exec_completes, step_ne_refused, fun _ => step_completes_of_entryAtPc, fun _ h => ⟨_, step_of_entryAtPc_none h⟩⟩

/-- Settles O9: beyond PC the failure writes only the returned value and the recorded byte, which no step reads. -/
theorem nextStepAfterUnknownOpcode : Obligations.NextStepAfterUnknownOpcode := by
  intro s u op hstep
  refine ⟨(pc_result_of_step_fault hstep).1, ?_⟩
  rw [step_of_entryAtPc_none (entryAtPc_eq_none_of_fault hstep)] at hstep
  cases hstep
  exact returnedValueIsNeverRead (s.setPc (s.pc + 1)) _ _

end Sys2Proof.Machine
end

section
/-! Reset as a function of memory and parameters, and the cycle counts the source states (70_reset_and_hazards.md R117,
R118, R127). -/

namespace Sys2Proof.Machine

open Sys2Proof.Claims

/-! ## Reset -/

/-- The little-endian word of the reset vector (R35, R117). -/
theorem readWord_resetVector (s : State) :
    readWord s 0xFFFC = joinWord (readByte s 0xFFFD) (readByte s 0xFFFC) := rfl

/-- Reset reads memory and keeps it with the parameters, and no other part of the state (R117, R119). -/
theorem resetCpu_congr {s t : State} (hmem : s.mem = t.mem) (hconfig : s.config = t.config) :
    resetCpu s = resetCpu t := by
  simp only [resetCpu, readWord, readByte_of_mem hmem, hmem, hconfig]

/-- Settles O51: PC is the word of the reset vector, and each other register and flag is a constant. -/
theorem resetTransition : Obligations.ResetTransition :=
  fun s => ⟨readWord_resetVector s, rfl, rfl, rfl, rfl, rfl, rfl, rfl, rfl, rfl, rfl, rfl⟩

/-- Settles O52: both parts are the congruence, since reset keeps memory and the parameters. -/
theorem resetForgetsTheCpuState : Obligations.ResetForgetsTheCpuState :=
  ⟨fun _ => resetCpu_congr rfl rfl, fun _ _ => resetCpu_congr⟩

/-! ## Cycle counts at the default parameters -/

/-- At the default parameters a byte has its entry of R55. -/
theorem entryAtPc_of_default {s : State} {byte : Byte} (hconfig : s.config = defaultConfig)
    (hbyte : readByte s s.pc = byte) : entryAtPc s = specTable.lookup byte := by
  rw [entryAtPc, hconfig, hbyte, tableEntry_of_no_overrides rfl]

/-- At the default parameters a step of a read operation returns the base count of R126, and one cycle more for a
crossing (R80, R81). -/
theorem result_of_default_read {s t : State} {byte : Byte} {op : Operation} {m : Mode} {o : Operand}
    (hconfig : s.config = defaultConfig) (hstep : step s = .next t) (hbyte : readByte s s.pc = byte)
    (hrow : specTable.lookup byte = some (op, m)) (hread : op ∈ [.lda, .ldx, .ldy, .and, .eor, .ora])
    (hoperand : operandOf m (readByte s (s.pc + 1)) (readByte s (s.pc + 2)) = some o) :
    t.result = some (.ok (defaultBaseCycles byte + if operandCrossed o s then 1 else 0)) := by
  have hentry : entryAtPc s = some (op, m) := (entryAtPc_of_default hconfig hbyte).trans hrow
  rw [step_of_read_entry hentry hread hoperand, hconfig, hbyte, baseCycles_of_no_overrides rfl] at hstep
  cases hstep
  rfl

/-- At the default parameters a step of an implied operation returns the base count of R126 (R66, R80). -/
theorem result_of_default_implied {s t : State} {byte : Byte} {op : Operation} (hconfig : s.config = defaultConfig)
    (hstep : step s = .next t) (hbyte : readByte s s.pc = byte) (hrow : specTable.lookup byte = some (op, .implied)) :
    t.result = some (.ok (defaultBaseCycles byte)) := by
  obtain ⟨i, _, hdecode, -, -, hoperand⟩ :=
    decodeWith_of_entryAtPc ((entryAtPc_of_default hconfig hbyte).trans hrow)
  rw [step_of_decodeWith hdecode, exec_implied_eq hoperand] at hstep
  obtain rfl := Host.Outcome.next.inj hstep
  change some (StepResult.ok (baseCycles s.config (readByte s s.pc))) = _
  rw [hconfig, hbyte, baseCycles_of_no_overrides rfl]

/-- The cycle that an indexed read adds to its base count (R77, R81). -/
theorem add_indexed_crossed (n : Nat) (base : Word) (index : Byte) :
    (n + if (indexed base index).crossed then 1 else 0) =
      if hiByte (base + zext16 index) = hiByte base then n else n + 1 := by
  by_cases hpage : hiByte (base + zext16 index) = hiByte base <;> simp [indexed, hpage]

/-- Settles O15: each count is the base count of the byte, and LDA Absolute,X alone of the five can cross a page. -/
theorem sourceCycleCounts : Obligations.SourceCycleCounts := by
  obtain ⟨hfault, -⟩ := cycleCost
  refine ⟨fun s t hconfig hstep => ⟨?ldaImm, ?ldaZp, ?ldaAbsX, ?pha, ?andImm⟩, fun _ => rfl, hfault⟩
  case ldaImm | ldaZp | andImm => exact fun hbyte => result_of_default_read hconfig hstep hbyte rfl (by decide) rfl
  case pha => exact fun hbyte => result_of_default_implied hconfig hstep hbyte rfl
  case ldaAbsX =>
    intro hbyte base
    rw [result_of_default_read hconfig hstep hbyte rfl (by decide) rfl]
    exact congrArg (some ∘ StepResult.ok) (add_indexed_crossed 4 base s.x)

end Sys2Proof.Machine
end
